-- ==== Sys2Proof/Word.lean ====
section
/-! DEFINITION. The machine's words: bytes, register words, register-port indices, selectors. -/

namespace Sys2Proof

/-- A payload byte (R7: a byte is 8 bits). -/
abbrev Byte := BitVec 8

/-- A word of the register port (R7, R21: every register word is 32 bits wide). -/
abbrev Word := BitVec 32

/-- A word index of the register port, 0 to 63 (R21: a 6-bit word index). -/
abbrev Index := BitVec 6

/-- An engine step selector, STATUS[5:0] (R80, R86). -/
abbrev Selector := BitVec 6

end Sys2Proof
end

