-- ==== Sys2Proof/Ports.lean ====
section
/-! DEFINITION. What crosses the block's ports: frames, the collaborators' answers, the events of the history
and the turns of the agents. All of it plain data. -/

namespace Sys2Proof

/-- A frame at a port (R64): width, height and one bit per pixel, 1 white and 0 black (R101). Pixel (x, y) is
bit `y * w + x`, so two frames are equal data exactly when they have the same size and the same pixels. -/
structure Frame where
  w : Nat
  h : Nat
  pix : BitVec (w * h)
  deriving DecidableEq, Repr

/-- The answer of VW to BEGIN, PUT and FINISH (R65) and of SNK to COMMIT (R68). -/
inductive Ack where
  | ok
  | err
  deriving DecidableEq, Repr, Inhabited

/-- The answer of VR to NEXT (R66): end of stream, a read error, or the next frame. -/
inductive VrAnswer where
  | eos
  | err
  | frame (F : Frame)
  deriving DecidableEq, Repr, Inhabited

/-- The answer of SRC to READ (R67): unreadable, or the whole payload. -/
inductive SrcAnswer where
  | err
  | bytes (B : List Byte)
  deriving DecidableEq, Repr, Inhabited

/-- An event of the port history (R69). The last argument of a request's event is the answer given. -/
inductive Event where
  | vwBegin (w h rate : Nat) (a : Ack)
  | vwPut (F : Frame) (a : Ack)
  | vwFinish (a : Ack)
  | vwDiscard
  | vrNext (r : VrAnswer)
  | vrRelease
  | srcRead (r : SrcAnswer)
  | snkCommit (B : List Byte) (a : Ack)
  deriving DecidableEq, Repr

/-- One turn in the total order of agent steps (R9, R72): the platform resets the block (R260), the Host makes
one register-port transaction (R51), or the Engine may take one step (R86). -/
inductive Turn where
  | reset
  | read (i : Index)
  | write (i : Index) (v : Word)
  | engine
  deriving DecidableEq, Repr

end Sys2Proof
end

