-- ==== Sys2Proof/Config.lean ====
section
/-! DEFINITION. What one instance of the block fixes (R6), and the free values: the answers a collaborator
gives when no answer was laid down for it. -/

namespace Sys2Proof

/-- The three implementation parameters of R6. The block's rules are a function of them; State carries them
unchanged (log 1), so a statement about every state is a statement about every instance. -/
structure Params where
  /-- MAX_W, the largest frame width in pixels. -/
  maxW : Nat
  /-- MAX_H, the largest frame height in pixels. -/
  maxH : Nat
  /-- PBUF_SIZE, the payload buffer's capacity in bytes. -/
  pbufSize : Nat
  deriving DecidableEq, Repr

/-- The instance "default for the model" of R6. -/
def Config.defaultParams : Params := { maxW := 65528, maxH := 65528, pbufSize := 4294967295 }

/-- FREE VALUE (log 3): what VW answers at its k-th draw past the answers State lists. "any value of the answer
type, drawn inside the step" (93_implementation_defined.md section 2). -/
opaque Config.freeVw : Nat → Ack

/-- FREE VALUE (log 3): what VR answers past the answers State lists. -/
opaque Config.freeVr : Nat → VrAnswer

/-- FREE VALUE (log 3): what SRC answers past the answers State lists. -/
opaque Config.freeSrc : Nat → SrcAnswer

/-- FREE VALUE (log 3): what SNK answers past the answers State lists. -/
opaque Config.freeSnk : Nat → Ack

end Sys2Proof
end

