-- ==== Sys2Proof/Syntax.lean ====
section
/-! DEFINITION. The instructions: one constructor per row of spec/opcode_table.json, and the two kinds of
word the block decodes. -/

namespace Sys2Proof

/-- Everything the block can be told to do. The four commands are issued by a Host write to CMD (R82); the
seven engine steps are selected by STATUS[5:0] (R86). No row has an operand field (R83): a command's operands
are the configuration registers, an engine step's are registers and collaborator answers. -/
inductive Instr where
  /-- CMD 0x00000001: validate WIDTH, HEIGHT, RATE and start an encode (R202). -/
  | encStart
  /-- CMD 0x00000002: start a decode (R205). -/
  | decStart
  /-- CMD 0x00000003: cancel the running operation (R210). -/
  | abort
  /-- CMD 0x00000004: return from DONE or ERROR to IDLE (R214). -/
  | clear
  /-- Selector 0x01: read the payload into PBUF (R140). -/
  | encLoad
  /-- Selector 0x09: open the writer and hand it the metadata frame (R143). -/
  | encMeta
  /-- Selector 0x11: render and hand over data frame FIDX (R146). -/
  | encData
  /-- Selector 0x19: finalize the video (R149). -/
  | encFinish
  /-- Selector 0x02: take frame 0 and decode the length header (R170). -/
  | decMeta
  /-- Selector 0x0A: take one data frame and append its bytes (R173). -/
  | decData
  /-- Selector 0x12: hand the whole payload to the output sink (R176). -/
  | decCommit
  deriving DecidableEq, Repr

/-- The two formats of R80: a 32-bit command word, or a 6-bit engine step selector. -/
inductive Encoded where
  /-- Format CMD (R81): the value of a Host write to word 0. -/
  | cmd (v : Word)
  /-- Format ENGINE (R86): STATUS[5:0]. -/
  | sel (s : Selector)
  deriving DecidableEq, Repr

/-- Why a word decodes to no instruction. -/
inductive Reject where
  /-- A command word that is none of the four of R82 (R84): the write sets LASTCMD to ILLEGAL. -/
  | illegalCommand
  /-- A selector of MODE IDLE, DONE or ERROR with PHASE 0 (R86): the Engine has no step. -/
  | noEngineStep
  /-- A selector of a (MODE, PHASE) pair that is never held (R86): the model faults. -/
  | neverHeldPair
  deriving DecidableEq, Repr

end Sys2Proof
end

