-- ==== Sys2Proof/WellFormed.lean ====
section
/-! DEFINITION. What is well formed: instructions, and the parameters of an instance. -/

namespace Sys2Proof

/-- No command and no engine step carries an operand, an immediate or a register field (R83), so there is no
ill-formed instruction. Every constructor is named, so a new one cannot slip past. -/
def Instr.wellFormed : Instr → Bool
  | .encStart => true
  | .decStart => true
  | .abort => true
  | .clear => true
  | .encLoad => true
  | .encMeta => true
  | .encData => true
  | .encFinish => true
  | .decMeta => true
  | .decData => true
  | .decCommit => true

/-- The legal values of MAX_W (R6): a multiple of 8 with 32 <= MAX_W <= 65528. -/
def Params.legalMaxW (p : Params) : Bool := p.maxW % 8 == 0 && decide (32 ≤ p.maxW) && decide (p.maxW ≤ 65528)

/-- The legal values of MAX_H (R6): a multiple of 8 with 8 <= MAX_H <= 65528. -/
def Params.legalMaxH (p : Params) : Bool := p.maxH % 8 == 0 && decide (8 ≤ p.maxH) && decide (p.maxH ≤ 65528)

/-- The legal values of PBUF_SIZE (R6): 1 <= PBUF_SIZE <= 2^32 - 1. -/
def Params.legalPbufSize (p : Params) : Bool := decide (1 ≤ p.pbufSize) && decide (p.pbufSize ≤ 4294967295)

/-- The legal parameters of R6. -/
def Params.legal (p : Params) : Bool := p.legalMaxW && p.legalMaxH && p.legalPbufSize

end Sys2Proof
end

