-- ==== Sys2Proof/Decode.lean ====
section
/-! DEFINITION. The decoder of the two formats (R81, R82, R86), total and rejecting by name, and after it the
encoder, written from the same tables. -/

namespace Sys2Proof

/-- R82, R84: a command word selects a command exactly when it equals that command's value (mask 0xFFFFFFFF);
every other 32-bit value is illegal. -/
def decodeCmd (v : Word) : Except Reject Instr :=
  if v = 0x00000001 then .ok .encStart
  else if v = 0x00000002 then .ok .decStart
  else if v = 0x00000003 then .ok .abort
  else if v = 0x00000004 then .ok .clear
  else .error .illegalCommand

/-- R86: the engine step that S = STATUS[5:0] selects; IDLE, DONE and ERROR (with PHASE 0) select none; every
other value is of a pair never held. -/
def decodeSel (s : Selector) : Except Reject Instr :=
  if s = 0x01 then .ok .encLoad
  else if s = 0x09 then .ok .encMeta
  else if s = 0x11 then .ok .encData
  else if s = 0x19 then .ok .encFinish
  else if s = 0x02 then .ok .decMeta
  else if s = 0x0A then .ok .decData
  else if s = 0x12 then .ok .decCommit
  else if s = 0x00 ∨ s = 0x03 ∨ s = 0x04 then .error .noEngineStep
  else .error .neverHeldPair

/-- The decoder: one word of either format (R80) to an instruction, or a rejection by name. -/
def decode : Encoded → Except Reject Instr
  | .cmd v => decodeCmd v
  | .sel s => decodeSel s

/-- The encoder: the one word of each instruction (R82, R86). -/
def encode : Instr → Encoded
  | .encStart => .cmd 0x00000001
  | .decStart => .cmd 0x00000002
  | .abort => .cmd 0x00000003
  | .clear => .cmd 0x00000004
  | .encLoad => .sel 0x01
  | .encMeta => .sel 0x09
  | .encData => .sel 0x11
  | .encFinish => .sel 0x19
  | .decMeta => .sel 0x02
  | .decData => .sel 0x0A
  | .decCommit => .sel 0x12

/-- The instruction as a word of either format: nothing where the decoder rejects it. -/
def decode? (e : Encoded) : Option Instr :=
  match decode e with
  | .ok i => some i
  | .error _ => none

/-- The word `w` of `nbits` bits as the table lays it out: a 32-bit row is a command word, a row of at most one
byte is a selector (the table gives it 6 bits), whose value must fit its 6 bits. Any other length is no format
of the block (R80). -/
def tableWord (nbits w : Nat) : Option Encoded :=
  if nbits = 32 then
    if w < 4294967296 then some (.cmd (BitVec.ofNat 32 w)) else none
  else if nbits = 8 ∨ nbits = 6 then
    if w < 64 then some (.sel (BitVec.ofNat 6 w)) else none
  else none

/-- The instruction the decoder reads from a row's word, bit 0 the least significant (the host's fixed name).
No instruction of this block has a second word. -/
def decodeTableWord (nbits w : Nat) : Option Instr := (tableWord nbits w).bind decode?

end Sys2Proof
end

