-- ==== Sys2Proof/Machine/State.lean ====
section
/-! DEFINITION. The machine's state, all that the spec gives it (10_state.md) and, set apart, the world outside
the block as plain data; the reasons a step can stop; the state after reset. -/

namespace Sys2Proof.Machine

/-- The payload buffer PBUF (R55) as the list of the cells that hold a value: addresses strictly rising. A cell
that is not listed holds no value (R42), so no cell is listed for nothing. -/
abbrev Memory := List Host.Cell

/-- The model's faults. Every one is a broken invariant or a broken precondition that the spec tells a model to
fault on (R250), unreachable from reset, and SAFE: the model stops where the spec gives nothing. -/
inductive Fault where
  /-- SAFE. Raised by every agent's step, and by a command's acceptance table (R200), on a (MODE, PHASE) pair
  that is never held (R28, R86, R250). -/
  | neverHeldPair
  /-- SAFE. Raised by every agent's step when ERRCODE holds a value R230 does not list
  (93_implementation_defined.md section 3). -/
  | neverHeldErrcode
  /-- SAFE. Raised by every agent's step when LASTCMD holds 3 (R30, 93_implementation_defined.md section 3). -/
  | neverHeldLastcmd
  /-- SAFE. Raised by MemRead and MemWrite when a + n > PBUF_SIZE (R56, R57). -/
  | pbufOutOfRange
  /-- SAFE. Raised by MemRead of a PBUF cell that holds no value (R42, R56). -/
  | pbufNoValue
  /-- SAFE. Raised by ENC_META, ENC_DATA and DEC_DATA on a pixel index outside the frame (R109, R250). -/
  | pixelOutsideFrame
  deriving DecidableEq, Repr

/-- The model's refusals. -/
inductive Refusal where
  /-- SAFE. An instruction that has no meaning yet; raised by no arm of exec. -/
  | notModelled (mnemonic : String)
  deriving DecidableEq, Repr

/-- The state between two agent steps. -/
structure State where
  /-- MAX_W, MAX_H, PBUF_SIZE (R6); never written (log 1). -/
  params : Params
  /-- STATUS.MODE (R27). -/
  mode : BitVec 3
  /-- STATUS.PHASE (R28). -/
  phase : BitVec 3
  /-- STATUS.ERRCODE (R29). -/
  errcode : BitVec 8
  /-- STATUS.LASTCMD (R30). -/
  lastcmd : BitVec 2
  /-- WIDTH[15:0] (R34). -/
  width : BitVec 16
  /-- HEIGHT[15:0] (R35). -/
  height : BitVec 16
  /-- RATE (R36). -/
  rate : Word
  /-- LENGTH (R37). -/
  length : Word
  /-- BPF (R38). -/
  bpf : Word
  /-- FCOUNT (R39). -/
  fcount : Word
  /-- FIDX (R40). -/
  fidx : Word
  /-- CURSOR (R41). -/
  cursor : Word
  /-- PBUF (R42, R55). -/
  pbuf : Memory
  /-- FB (R42); `none` is the spec's own "no value" (log 6). -/
  fb : Option Frame
  /-- H, the history of port events, oldest first (R69). -/
  hist : List Event
  /-- MODEL'S OWN (log 2): the turns to come, next first. -/
  sched : List Turn
  /-- MODEL'S OWN (log 3): the answers VW will give, next first. -/
  vwIn : List Ack
  /-- MODEL'S OWN (log 3): the answers VR will give, next first. -/
  vrIn : List VrAnswer
  /-- MODEL'S OWN (log 3): the answers SRC will give, next first. -/
  srcIn : List SrcAnswer
  /-- MODEL'S OWN (log 3): the answers SNK will give, next first. -/
  snkIn : List Ack
  /-- MODEL'S OWN (log 3): how many answers were drawn from a free value. -/
  draws : Nat
  /-- MODEL'S OWN (log 4): the values the Host's reads returned, oldest first. -/
  reads : List Word
  deriving DecidableEq, Repr

/-- The machine right after reset (R44, R260), for the default instance of R6 and with no turn and no answer
laid down outside it. -/
def State.reset : State where
  params := Config.defaultParams
  mode := 0
  phase := 0
  errcode := 0
  lastcmd := 0
  width := 0
  height := 0
  rate := 0
  length := 0
  bpf := 0
  fcount := 0
  fidx := 0
  cursor := 0
  pbuf := []
  fb := none
  hist := []
  sched := []
  vwIn := []
  vrIn := []
  srcIn := []
  snkIn := []
  draws := 0
  reads := []

/-- What a step or a meaning answers. -/
abbrev Out := Host.Outcome State Fault Refusal

end Sys2Proof.Machine
end

