-- ==== Sys2Proof/Machine/Operands.lean ====
section
/-! DEFINITION. The operands the rules compute: the geometry predicate, frame counts and chunks (R100, R103 to
R105), and the words of the register port as operands of Host reads and writes (R22). Arithmetic is on naturals (R10). -/

namespace Sys2Proof.Machine

/-- `ceilDiv(a, b) = (a + b - 1) div b` (R10, R104). -/
def ceilDiv (a b : Nat) : Nat := (a + b - 1) / b

/-- `validGeom(W, H)` (R100). -/
def validGeom (p : Params) (w h : Nat) : Bool :=
  w % 8 == 0 && h % 8 == 0 && decide (32 ≤ w) && decide (w ≤ p.maxW) && decide (8 ≤ h) && decide (h ≤ p.maxH)

/-- Bytes per frame, `W * H div 8` (R103). -/
def bytesPerFrame (w h : Nat) : Nat := w * h / 8

/-- The payload bytes of one data frame when `cursor` bytes are done: `min(BPF, L - off)` (R105, R146, R173).
Under the invariants of R43 the cursor is at most the length (log 5). -/
def chunkLength (bpf len cursor : Nat) : Nat := min bpf (len - cursor)

/-- The column and row of frame byte k: `pos(W, k) = (k mod BPW, k div BPW)` with BPW = W div 8 (R103). -/
def pos (w k : Nat) : Nat × Nat := (k % (w / 8), k / (w / 8))

/-- The number of payload bytes the current data step handles: `min(BPF, LENGTH - CURSOR)`. -/
def State.chunk (s : State) : Nat := chunkLength s.bpf.toNat s.length.toNat s.cursor.toNat

end Sys2Proof.Machine
end

