-- ==== Sys2Proof/Machine/Flags.lean ====
section
/-! DEFINITION. STATUS: the values of its fields, its derived bits, the whole word (R26 to R33), which values
are never held, and in which MODE each command is accepted (R200). -/

namespace Sys2Proof.Machine

/-- MODE values (R27). -/
abbrev Mode.idle : BitVec 3 := 0
abbrev Mode.enc : BitVec 3 := 1
abbrev Mode.dec : BitVec 3 := 2
abbrev Mode.done : BitVec 3 := 3
abbrev Mode.error : BitVec 3 := 4

/-- PHASE values of an encode and of a decode (R28). -/
abbrev Phase.encLoad : BitVec 3 := 0
abbrev Phase.encMeta : BitVec 3 := 1
abbrev Phase.encData : BitVec 3 := 2
abbrev Phase.encFinish : BitVec 3 := 3
abbrev Phase.decMeta : BitVec 3 := 0
abbrev Phase.decData : BitVec 3 := 1
abbrev Phase.decCommit : BitVec 3 := 2

/-- Error codes (R230). -/
abbrev ErrCode.none : BitVec 8 := 0x00
abbrev ErrCode.inputRead : BitVec 8 := 0x01
abbrev ErrCode.emptyPayload : BitVec 8 := 0x02
abbrev ErrCode.invalidFrameGeometry : BitVec 8 := 0x03
abbrev ErrCode.containerWrite : BitVec 8 := 0x04
abbrev ErrCode.containerRead : BitVec 8 := 0x05
abbrev ErrCode.lengthMismatch : BitVec 8 := 0x06
abbrev ErrCode.payloadTooLarge : BitVec 8 := 0x10
abbrev ErrCode.outputWrite : BitVec 8 := 0x11
abbrev ErrCode.aborted : BitVec 8 := 0x12
abbrev ErrCode.invalidFrameRate : BitVec 8 := 0x13

/-- LASTCMD values (R30). -/
abbrev LastCmd.accepted : BitVec 2 := 0
abbrev LastCmd.illegal : BitVec 2 := 1
abbrev LastCmd.wrongState : BitVec 2 := 2

/-- No operation runs: MODE in {IDLE, DONE, ERROR} (R22 "RW-idle", R53, R249). -/
def modeIdle (m : BitVec 3) : Bool := m == Mode.idle || m == Mode.done || m == Mode.error

/-- An operation runs: MODE in {ENC, DEC} (R27 "engine enabled"). -/
def modeRunning (m : BitVec 3) : Bool := m == Mode.enc || m == Mode.dec

/-- VW_OPEN (R31). -/
def State.vwOpen (s : State) : Bool :=
  s.mode == Mode.enc && (s.phase == Phase.encData || s.phase == Phase.encFinish)

/-- VR_HELD (R32). -/
def State.vrHeld (s : State) : Bool :=
  s.mode == Mode.dec && (s.phase == Phase.decMeta || s.phase == Phase.decData)

/-- The irq output, mirrored in STATUS.IRQ (R33, R240): 1 exactly when MODE is DONE or ERROR. -/
def State.irq (s : State) : Bool := s.mode == Mode.done || s.mode == Mode.error

/-- The STATUS word (R26). -/
def State.status (s : State) : Word :=
  BitVec.ofNat 32 (s.mode.toNat + 8 * s.phase.toNat + 256 * s.errcode.toNat + 65536 * s.lastcmd.toNat
    + 2 ^ 18 * s.vwOpen.toNat + 2 ^ 19 * s.vrHeld.toNat + 2 ^ 20 * s.irq.toNat)

/-- The engine step selector S = STATUS[5:0] = MODE + 8 * PHASE (R86). -/
def State.selector (s : State) : Selector := s.phase ++ s.mode

/-- The (MODE, PHASE) pairs that are held (R28). -/
def pairHeld (mode phase : BitVec 3) : Bool :=
  if mode = Mode.enc then decide (phase.toNat ≤ 3)
  else if mode = Mode.dec then decide (phase.toNat ≤ 2)
  else modeIdle mode && phase == 0

/-- The ERRCODE values of R230. -/
def errcodeHeld (c : BitVec 8) : Bool :=
  decide (c.toNat ≤ 0x06) || (decide (0x10 ≤ c.toNat) && decide (c.toNat ≤ 0x13))

/-- The fault of a state that holds a value the spec says is never held (93_implementation_defined.md section
3), if it does. -/
def State.heldFault (s : State) : Option Fault :=
  if pairHeld s.mode s.phase = false then some .neverHeldPair
  else if errcodeHeld s.errcode = false then some .neverHeldErrcode
  else if s.lastcmd = 3 then some .neverHeldLastcmd
  else none

/-- Acceptance of ENC_START (R200): yes in IDLE, DONE, ERROR; no in ENC, DEC; the table has no other MODE. -/
def acceptEncStart (m : BitVec 3) : Option Bool :=
  if modeIdle m then some true else if modeRunning m then some false else none

/-- Acceptance of DEC_START (R200). -/
def acceptDecStart (m : BitVec 3) : Option Bool :=
  if modeIdle m then some true else if modeRunning m then some false else none

/-- Acceptance of ABORT (R200): yes in every MODE of the table. -/
def acceptAbort (m : BitVec 3) : Option Bool :=
  if modeIdle m || modeRunning m then some true else none

/-- Acceptance of CLEAR (R200). -/
def acceptClear (m : BitVec 3) : Option Bool :=
  if modeIdle m then some true else if modeRunning m then some false else none

end Sys2Proof.Machine
end

