-- ==== Sys2Proof/Machine/FrameCodec.lean ====
section
/-! DEFINITION. The pure datapath: the frame codec (40_frame_codec.md) and the metadata codec
(41_metadata_codec.md). The functions are total; a pixel index outside the frame reads black and writes nothing
here, and the steps fault before they would use one (`byteInFrame`, `headerInFrame`; R109, R250). -/

namespace Sys2Proof.Machine

/-- `blank(W, H)`: every pixel 0, black (R101). -/
def blank (w h : Nat) : Frame := { w := w, h := h, pix := 0 }

/-- `Pix(F, x, y)` (R64). -/
def getPix (F : Frame) (x y : Nat) : Bool := decide (x < F.w ∧ y < F.h) && F.pix.getLsbD (y * F.w + x)

/-- `F with (x, y) := p` (R11). -/
def setPix (F : Frame) (x y : Nat) (p : Bool) : Frame :=
  if x < F.w ∧ y < F.h then
    { F with
      pix := if p then F.pix ||| BitVec.twoPow (F.w * F.h) (y * F.w + x)
        else F.pix &&& ~~~ BitVec.twoPow (F.w * F.h) (y * F.w + x) }
  else F

/-- Pixels x, x + 1, ... of row y set to the list's values in turn: the loops of R109 and R120. -/
def setRun (F : Frame) (x y : Nat) : List Bool → Frame
  | [] => F
  | p :: ps => setRun (setPix F x y p) (x + 1) y ps

/-- Pixels x, x + 1, ..., x + n - 1 of row y: the reads of R110 and R121. -/
def getRun (F : Frame) (x y n : Nat) : List Bool := (List.range n).map fun j => getPix F (x + j) y

/-- The n low bits of a value, bit 0 first. -/
def bitsOf (n v : Nat) : List Bool := (List.range n).map v.testBit

/-- The sum over j of p[j] * 2^j (R108, R121). -/
def bitsToNat : List Bool → Nat
  | [] => 0
  | p :: ps => p.toNat + 2 * bitsToNat ps

/-- `encodeByte(b)`: pixel j is bit j, so the least significant bit is leftmost (R102, R107). -/
def encodeByte (b : Byte) : List Bool := bitsOf 8 b.toNat

/-- `decodeByte(p)` (R108). -/
def decodeByte (p : List Bool) : Byte := BitVec.ofNat 8 (bitsToNat p)

/-- `placeByte(F, W, k, b)` (R109). -/
def placeByte (F : Frame) (w k : Nat) (b : Byte) : Frame :=
  setRun F (8 * (pos w k).1) (pos w k).2 (encodeByte b)

/-- `takeByte(F, W, k)` (R110). -/
def takeByte (F : Frame) (w k : Nat) : Byte := decodeByte (getRun F (8 * (pos w k).1) (pos w k).2 8)

/-- The loop of R111: the bytes of the list placed as frame bytes k, k + 1, ... -/
def placeBytes (F : Frame) (w k : Nat) (B : List Byte) : Frame :=
  (B.zipIdx k).foldl (fun G c => placeByte G w c.2 c.1) F

/-- `packFrame(W, H, B)` (R111). -/
def packFrame (w h : Nat) (B : List Byte) : Frame := placeBytes (blank w h) w 0 B

/-- `unpackFrame(F, W, m)` (R112). -/
def unpackFrame (F : Frame) (w m : Nat) : List Byte := (List.range m).map (takeByte F w)

/-- All 8 pixels of frame byte k lie in a w x h frame; a model faults otherwise (R109, R250). -/
def byteInFrame (w h k : Nat) : Bool := decide (8 * (pos w k).1 + 7 < w) && decide ((pos w k).2 < h)

/-- Frame bytes 0 .. n-1 lie in a w x h frame. -/
def bytesInFrame (w h n : Nat) : Bool := (List.range n).all (byteInFrame w h)

/-- Pixels (0..31, 0) lie in a w x h frame (R120, R121). -/
def headerInFrame (w h : Nat) : Bool := decide (32 ≤ w) && decide (1 ≤ h)

/-- `encodeMetadata(L, W, H)`: pixel (i, 0) is bit i of L for i in 0..31, all others black (R120). -/
def encodeMetadata (len : Word) (w h : Nat) : Frame := setRun (blank w h) 0 0 (bitsOf 32 len.toNat)

/-- `decodeMetadata(F)`: reads only pixels (0..31, 0) (R121). -/
def decodeMetadata (F : Frame) : Word := BitVec.ofNat 32 (bitsToNat (getRun F 0 0 32))

end Sys2Proof.Machine
end

