-- ==== Sys2Proof/Machine/Ops.lean ====
section
/-! DEFINITION. The named operations the meanings share: the payload buffer (R56, R57), asking a collaborator
(R69, R70), the frame buffer, raising an operation error (R236), and the register port (R52, R53). -/

namespace Sys2Proof.Machine

/-- The canonical form of PBUF: the listed addresses strictly rise. -/
abbrev Memory.wf (m : Memory) : Prop := m.Pairwise fun c d => c.1 < d.1

/-- One cell of PBUF: its byte, or no value (R42). -/
def Memory.read : Memory → Nat → Option Byte
  | [], _ => none
  | c :: m, a => if c.1 = a then some c.2 else Memory.read m a

/-- The cells a, a + 1, ..., a + n - 1 in order, if each holds a value (R56). -/
def Memory.readBytes (m : Memory) (a : Nat) : Nat → Option (List Byte)
  | 0 => some []
  | n + 1 =>
    match m.read a, Memory.readBytes m (a + 1) n with
    | some b, some bs => some (b :: bs)
    | _, _ => none

/-- The bytes of a list as the cells a, a + 1, ... -/
def cellsFrom (a : Nat) : List Byte → Memory
  | [] => []
  | b :: bs => (a, b) :: cellsFrom (a + 1) bs

/-- PBUF[a + k] <- B[k] for k < |B|; the cells outside keep their contents (R57). -/
def Memory.writeBytes (m : Memory) (a : Nat) (B : List Byte) : Memory :=
  m.filter (fun c => decide (c.1 < a)) ++ cellsFrom a B ++ m.filter (fun c => decide (a + B.length ≤ c.1))

/-- `MemRead(a, n)` (R56). -/
def State.memRead (s : State) (a n : Nat) : Except Fault (List Byte) :=
  if a + n ≤ s.params.pbufSize then
    match s.pbuf.readBytes a n with
    | some B => .ok B
    | none => .error .pbufNoValue
  else .error .pbufOutOfRange

/-- `MemWrite(a, |B|, B)` (R57). -/
def State.memWrite (s : State) (a : Nat) (B : List Byte) : Except Fault State :=
  if a + B.length ≤ s.params.pbufSize then .ok { s with pbuf := s.pbuf.writeBytes a B }
  else .error .pbufOutOfRange

/-- `emit E` (R69): append the event to the history. -/
def State.emit (s : State) (e : Event) : State := { s with hist := s.hist ++ [e] }

/-- The answer VW gives next (R70): the next one laid down, else a free value (log 3). -/
def State.vwAnswer (s : State) : Ack :=
  match s.vwIn with
  | a :: _ => a
  | [] => Config.freeVw s.draws

/-- VW's next answer has been drawn. -/
def State.vwTaken (s : State) : State :=
  match s.vwIn with
  | _ :: rest => { s with vwIn := rest }
  | [] => { s with draws := s.draws + 1 }

/-- The answer VR gives next (R70). -/
def State.vrAnswer (s : State) : VrAnswer :=
  match s.vrIn with
  | a :: _ => a
  | [] => Config.freeVr s.draws

/-- VR's next answer has been drawn. -/
def State.vrTaken (s : State) : State :=
  match s.vrIn with
  | _ :: rest => { s with vrIn := rest }
  | [] => { s with draws := s.draws + 1 }

/-- The answer SRC gives next (R70). -/
def State.srcAnswer (s : State) : SrcAnswer :=
  match s.srcIn with
  | a :: _ => a
  | [] => Config.freeSrc s.draws

/-- SRC's next answer has been drawn. -/
def State.srcTaken (s : State) : State :=
  match s.srcIn with
  | _ :: rest => { s with srcIn := rest }
  | [] => { s with draws := s.draws + 1 }

/-- The answer SNK gives next (R70). -/
def State.snkAnswer (s : State) : Ack :=
  match s.snkIn with
  | a :: _ => a
  | [] => Config.freeSnk s.draws

/-- SNK's next answer has been drawn. -/
def State.snkTaken (s : State) : State :=
  match s.snkIn with
  | _ :: rest => { s with snkIn := rest }
  | [] => { s with draws := s.draws + 1 }

/-- `ask VW.BEGIN(w, h, rate)` (R65, R70): the event records the answer. -/
def State.askBegin (s : State) (w h rate : Nat) : State := s.vwTaken.emit (.vwBegin w h rate s.vwAnswer)

/-- FB holds the frame being built or just received (R42). -/
def State.fillFb (s : State) (F : Frame) : State := { s with fb := some F }

/-- Between two steps FB holds no value (R42, 93_implementation_defined.md section 2; log 6). -/
def State.dropFb (s : State) : State := { s with fb := none }

/-- `ask VW.PUT(F)` of the frame built in FB (R64, R65, R275): the writer gets a copy, and FB carries nothing on. -/
def State.askPut (s : State) (F : Frame) : State := ((s.vwTaken.fillFb F).emit (.vwPut F s.vwAnswer)).dropFb

/-- `ask VW.FINISH` (R65). -/
def State.askFinish (s : State) : State := s.vwTaken.emit (.vwFinish s.vwAnswer)

/-- `ask VR.NEXT` (R66). -/
def State.askNext (s : State) : State := s.vrTaken.emit (.vrNext s.vrAnswer)

/-- `ask SRC.READ` (R67). -/
def State.askRead (s : State) : State := s.srcTaken.emit (.srcRead s.srcAnswer)

/-- `ask SNK.COMMIT(B)` (R68). -/
def State.askCommit (s : State) (B : List Byte) : State := s.snkTaken.emit (.snkCommit B s.snkAnswer)

/-- `raise Err(code)` (R236): the one operation by which an error ends an operation. There is no handler, no
vector and no saved program counter; the return is CLEAR or a START (R239). -/
def State.raise (s : State) (code : BitVec 8) : State :=
  { s with mode := Mode.error, phase := 0, errcode := code }

/-- A failing writer request: VW.DISCARD in the same step, then ContainerWriteError (R143, R146, R149). -/
def State.failWriter (s : State) : State := (s.emit .vwDiscard).raise ErrCode.containerWrite

/-- A failing decode step while the reader is held: VR.RELEASE in the same step, then the error (R170, R173). -/
def State.failReader (s : State) (code : BitVec 8) : State := (s.emit .vrRelease).raise code

/-- A command's answer (R200): its effect where it is accepted, else LASTCMD <- WRONG_STATE and nothing else
(R201); a MODE the table of R200 does not have is never held (R27). -/
def State.issue (s : State) (accepted : Option Bool) (effect : State) : Out :=
  match accepted with
  | some true => .next effect
  | some false => .next { s with lastcmd := LastCmd.wrongState }
  | none => .fault .neverHeldPair

/-- What both START commands do first (R202, R205). -/
def State.startClear (s : State) : State :=
  { s with
    lastcmd := LastCmd.accepted, errcode := ErrCode.none
    length := 0, bpf := 0, fcount := 0, fidx := 0, cursor := 0 }

/-- `read(i)` of the register port (R52): the value, no side effect. -/
def State.readWord (s : State) (i : Index) : Word :=
  match i.toNat with
  | 0 => 0
  | 1 => s.status
  | 2 => s.width.setWidth 32
  | 3 => s.height.setWidth 32
  | 4 => s.rate
  | 5 => s.length
  | 6 => s.bpf
  | 7 => s.fcount
  | 8 => s.fidx
  | 9 => s.cursor
  | _ => 0

/-- `write(i, v)` of the register port for every word but CMD (R53): the configuration words take it while no
operation runs, every other word ignores it (R54). -/
def State.writeWord (s : State) (i : Index) (v : Word) : State :=
  match i.toNat with
  | 2 => if modeIdle s.mode then { s with width := v.setWidth 16 } else s
  | 3 => if modeIdle s.mode then { s with height := v.setWidth 16 } else s
  | 4 => if modeIdle s.mode then { s with rate := v } else s
  | _ => s

/-- Reset of the block (R260, R261): every state element to its value of R44, no port event. The instance's
parameters and the world outside the block are not the block's state and stay. -/
def State.resetBlock (s : State) : State :=
  { State.reset with
    params := s.params, sched := s.sched, vwIn := s.vwIn, vrIn := s.vrIn, srcIn := s.srcIn, snkIn := s.snkIn
    draws := s.draws, reads := s.reads }

end Sys2Proof.Machine
end

