-- ==== Sys2Proof/Machine/Commands.lean ====
section
/-! DEFINITION. The Host commands (44_commands.md). -/

namespace Sys2Proof.Machine

/-- The effect of an accepted ENC_START (R202): geometry is checked before the rate (R232). -/
def encStartEffect (s : State) : State :=
  if validGeom s.params s.width.toNat s.height.toNat = false then
    s.startClear.raise ErrCode.invalidFrameGeometry
  else if s.rate = 0 then s.startClear.raise ErrCode.invalidFrameRate
  else
    { s.startClear with
      bpf := BitVec.ofNat 32 (bytesPerFrame s.width.toNat s.height.toNat)
      mode := Mode.enc, phase := Phase.encLoad }

/-- ENC_START (R202). -/
def execEncStart (s : State) : Out := s.issue (acceptEncStart s.mode) (encStartEffect s)

/-- DEC_START (R205). -/
def execDecStart (s : State) : Out :=
  s.issue (acceptDecStart s.mode) { s.startClear with mode := Mode.dec, phase := Phase.decMeta }

/-- The effect of ABORT (R210): the open writer is discarded or the held reader released, then Aborted. -/
def abortEffect (s : State) : State :=
  let t := { s with lastcmd := LastCmd.accepted }
  if s.mode = Mode.enc then
    (if s.vwOpen then t.emit .vwDiscard else t).raise ErrCode.aborted
  else if s.mode = Mode.dec then
    (if s.vrHeld then t.emit .vrRelease else t).raise ErrCode.aborted
  else t

/-- ABORT (R210). -/
def execAbort (s : State) : Out := s.issue (acceptAbort s.mode) (abortEffect s)

/-- The effect of an accepted CLEAR (R214). -/
def clearEffect (s : State) : State :=
  if s.mode = Mode.done ∨ s.mode = Mode.error then
    { s with lastcmd := LastCmd.accepted, mode := Mode.idle, errcode := ErrCode.none }
  else { s with lastcmd := LastCmd.accepted }

/-- CLEAR (R214). -/
def execClear (s : State) : Out := s.issue (acceptClear s.mode) (clearEffect s)

end Sys2Proof.Machine
end

