-- ==== Sys2Proof/Machine/Decoder.lean ====
section
/-! DEFINITION. The decoder's engine steps (43_decoder.md). -/

namespace Sys2Proof.Machine

/-- The writes of DEC_META once every check has passed (R170): frame 0's geometry and the length header. A
header of 0 releases the reader and goes straight to COMMIT. -/
def latchHeader (s : State) (F : Frame) : State :=
  let len := decodeMetadata F
  let t : State :=
    { s with
      width := BitVec.ofNat 16 F.w, height := BitVec.ofNat 16 F.h
      bpf := BitVec.ofNat 32 (bytesPerFrame F.w F.h)
      length := len
      fcount := BitVec.ofNat 32 (ceilDiv len.toNat (bytesPerFrame F.w F.h))
      fidx := 1 }
  if len = 0 then { t.emit .vrRelease with phase := Phase.decCommit } else { t with phase := Phase.decData }

/-- DEC_META (R170): frame 0 is metadata, never payload (R122). validGeom gives the frame its 32 header pixels. -/
def execDecMeta (s : State) : Out :=
  let t := s.askNext
  match s.vrAnswer with
  | .eos => .next (t.failReader ErrCode.lengthMismatch)
  | .err => .next (t.failReader ErrCode.containerRead)
  | .frame F =>
    let u := (t.fillFb F).dropFb
    if validGeom s.params F.w F.h = false then .next (u.failReader ErrCode.invalidFrameGeometry)
    else if s.params.pbufSize < (decodeMetadata F).toNat then .next (u.failReader ErrCode.payloadTooLarge)
    else .next (latchHeader u F)

/-- The writes of DEC_DATA after the payload bytes (R173): the cursor and the frame index advance; when the last
byte is there the reader is released. -/
def advanceDecode (s : State) (m : Nat) : State :=
  let t : State :=
    { s with
      cursor := BitVec.ofNat 32 (s.cursor.toNat + m)
      fidx := BitVec.ofNat 32 (s.fidx.toNat + 1) }
  if s.cursor.toNat + m = s.length.toNat then { t.emit .vrRelease with phase := Phase.decCommit } else t

/-- DEC_DATA (R173): one data frame's first m bytes appended to PBUF; padding is not read (R116). -/
def execDecData (s : State) : Out :=
  let t := s.askNext
  match s.vrAnswer with
  | .eos => .next (t.failReader ErrCode.lengthMismatch)
  | .err => .next (t.failReader ErrCode.containerRead)
  | .frame F =>
    let u := (t.fillFb F).dropFb
    if (F.w, F.h) ≠ (s.width.toNat, s.height.toNat) then
      .next (u.failReader ErrCode.invalidFrameGeometry)
    else if bytesInFrame F.w F.h s.chunk then
      match u.memWrite s.cursor.toNat (unpackFrame F s.width.toNat s.chunk) with
      | .error f => .fault f
      | .ok v => .next (advanceDecode v s.chunk)
    else .fault .pixelOutsideFrame

/-- DEC_COMMIT (R176): the whole payload to the sink, once. -/
def execDecCommit (s : State) : Out :=
  match s.memRead 0 s.length.toNat with
  | .error f => .fault f
  | .ok B =>
    match s.snkAnswer with
    | .err => .next ((s.askCommit B).raise ErrCode.outputWrite)
    | .ok => .next { s.askCommit B with mode := Mode.done, phase := 0 }

end Sys2Proof.Machine
end

