-- ==== Sys2Proof/Machine/Encoder.lean ====
section
/-! DEFINITION. The encoder's engine steps (42_encoder.md). -/

namespace Sys2Proof.Machine

/-- ENC_LOAD (R140): SRC.READ, then the checks in the order of R232, then the payload into PBUF. -/
def execEncLoad (s : State) : Out :=
  let t := s.askRead
  match s.srcAnswer with
  | .err => .next (t.raise ErrCode.inputRead)
  | .bytes B =>
    if B.length = 0 then .next (t.raise ErrCode.emptyPayload)
    else if s.params.pbufSize < B.length then .next (t.raise ErrCode.payloadTooLarge)
    else
      match t.memWrite 0 B with
      | .error f => .fault f
      | .ok u =>
        .next { u with
          length := BitVec.ofNat 32 B.length
          fcount := BitVec.ofNat 32 (ceilDiv B.length s.bpf.toNat)
          phase := Phase.encMeta }

/-- ENC_META (R143): VW.BEGIN, then the metadata frame as the first PUT (R122). -/
def execEncMeta (s : State) : Out :=
  let t := s.askBegin s.width.toNat s.height.toNat s.rate.toNat
  match s.vwAnswer with
  | .err => .next t.failWriter
  | .ok =>
    if headerInFrame s.width.toNat s.height.toNat then
      let u := t.askPut (encodeMetadata s.length s.width.toNat s.height.toNat)
      match t.vwAnswer with
      | .err => .next u.failWriter
      | .ok => .next { u with fidx := 1, phase := Phase.encData }
    else .fault .pixelOutsideFrame

/-- ENC_DATA (R146): render payload bytes CURSOR .. CURSOR+m-1 as data frame FIDX and hand it over. -/
def execEncData (s : State) : Out :=
  match s.memRead s.cursor.toNat s.chunk with
  | .error f => .fault f
  | .ok B =>
    if bytesInFrame s.width.toNat s.height.toNat B.length then
      let t := s.askPut (packFrame s.width.toNat s.height.toNat B)
      match s.vwAnswer with
      | .err => .next t.failWriter
      | .ok =>
        .next { t with
          cursor := BitVec.ofNat 32 (s.cursor.toNat + s.chunk)
          fidx := BitVec.ofNat 32 (s.fidx.toNat + 1)
          phase := if s.fidx.toNat + 1 = s.fcount.toNat + 1 then Phase.encFinish else s.phase }
    else .fault .pixelOutsideFrame

/-- ENC_FINISH (R149): VW.FINISH ends the encode. -/
def execEncFinish (s : State) : Out :=
  match s.vwAnswer with
  | .err => .next s.askFinish.failWriter
  | .ok => .next { s.askFinish with mode := Mode.done, phase := 0 }

end Sys2Proof.Machine
end

