-- ==== Sys2Proof/Machine/Dispatch.lean ====
section
/-! DEFINITION. One arm per instruction. -/

namespace Sys2Proof.Machine

def exec (i : Instr) (s : State) : Host.Outcome State Fault Refusal :=
  match i with
  | .encStart => Sys2Proof.Machine.execEncStart s
  | .decStart => Sys2Proof.Machine.execDecStart s
  | .abort => Sys2Proof.Machine.execAbort s
  | .clear => Sys2Proof.Machine.execClear s
  | .encLoad => Sys2Proof.Machine.execEncLoad s
  | .encMeta => Sys2Proof.Machine.execEncMeta s
  | .encData => Sys2Proof.Machine.execEncData s
  | .encFinish => Sys2Proof.Machine.execEncFinish s
  | .decMeta => Sys2Proof.Machine.execDecMeta s
  | .decData => Sys2Proof.Machine.execDecData s
  | .decCommit => Sys2Proof.Machine.execDecCommit s

end Sys2Proof.Machine
end

