-- ==== Sys2Proof/Machine/Port.lean ====
section
/-! DEFINITION. The agents' turns: the Host's register-port transactions (R51 to R54, R200), the Engine's step
(R86), reset (R260), and how an instruction's word is put where the next turn runs it. -/

namespace Sys2Proof.Machine

/-- A Host read (R52): the value goes to the Host, no state of the block changes. -/
def hostRead (i : Index) (s : State) : Out :=
  match s.heldFault with
  | some f => .fault f
  | none => .next { s with reads := s.reads ++ [s.readWord i] }

/-- A Host write (R53). Word 0 issues the command the value encodes, and an illegal value sets LASTCMD and
nothing else (R84, R200). -/
def hostWrite (i : Index) (v : Word) (s : State) : Out :=
  match s.heldFault with
  | some f => .fault f
  | none =>
    if i = 0 then
      match decodeCmd v with
      | .ok c => exec c s
      | .error _ => .next { s with lastcmd := LastCmd.illegal }
    else .next (s.writeWord i v)

/-- The Engine's turn (R86): the step STATUS[5:0] selects; with no operation running it has none (R249), and the
turn passes. -/
def engineTurn (s : State) : Out :=
  match s.heldFault with
  | some f => .fault f
  | none =>
    match decodeSel s.selector with
    | .ok i => exec i s
    | .error .neverHeldPair => .fault .neverHeldPair
    | .error _ => .next s

/-- The next turn of the total order (R72). When no further turn is laid down the Host and the platform are
silent and the Engine moves (R281; log 2). -/
def takeTurn (s : State) : Out :=
  match s.sched with
  | [] => engineTurn s
  | .engine :: rest => engineTurn { s with sched := rest }
  | .read i :: rest => hostRead i { s with sched := rest }
  | .write i v :: rest => hostWrite i v { s with sched := rest }
  | .reset :: rest => .next { s with sched := rest }.resetBlock

/-- A command word is put where it is issued: the Host's next transaction writes it to CMD. -/
def State.placeCommand (s : State) (v : Word) : State := { s with sched := .write 0 v :: s.sched }

/-- A selector is put where the Engine reads it, MODE and PHASE, and the Engine moves next. An engine step runs
only with its collaborator's answer (R70), so a collaborator for which none is laid down answers ERR (log 7). -/
def State.placeSelector (s : State) (x : Selector) : State :=
  { s with
    mode := x.extractLsb' 0 3, phase := x.extractLsb' 3 3
    sched := .engine :: s.sched
    vwIn := if s.vwIn = [] then [.err] else s.vwIn
    vrIn := if s.vrIn = [] then [.err] else s.vrIn
    srcIn := if s.srcIn = [] then [.err] else s.srcIn
    snkIn := if s.snkIn = [] then [.err] else s.snkIn }

/-- An instruction's word where the next turn runs it; a word of no format changes nothing. -/
def State.placeWord (s : State) (nbits w : Nat) : State :=
  match tableWord nbits w with
  | some (.cmd v) => s.placeCommand v
  | some (.sel x) => s.placeSelector x
  | none => s

end Sys2Proof.Machine
end

