-- ==== Sys2Proof/Safety.lean ====
section
/-! DEFINITION. What counts as a safe run, in the terms the statements use: the invariants of R43, the order the
block keeps at its ports (R65, R66, R150, R177), and what a whole encode and a whole decode are (R152, R180). -/

namespace Sys2Proof.Machine

/-! ### The invariants of R43 -/

/-- The answer of the last SRC.READ in a history. -/
def lastRead (H : List Event) : Option SrcAnswer :=
  H.foldl (fun r e => match e with | .srcRead a => some a | _ => r) none

/-- PBUF[0 .. n-1] hold values. -/
def PbufHolds (m : Memory) (n : Nat) : Prop := ∀ a, a < n → (m.read a).isSome = true

/-- PBUF[0 .. LENGTH-1] hold the payload that SRC gave. -/
def HoldsPayload (s : State) : Prop :=
  ∃ B, lastRead s.hist = some (.bytes B) ∧ s.length.toNat = B.length ∧ s.pbuf.readBytes 0 B.length = some B

/-- The geometry of the running operation is legal and BPF is its frame capacity. -/
def Latched (s : State) : Prop :=
  validGeom s.params s.width.toNat s.height.toNat = true ∧
  s.bpf.toNat = bytesPerFrame s.width.toNat s.height.toNat

/-- FCOUNT = ceilDiv(LENGTH, BPF). -/
def Counted (s : State) : Prop := s.fcount.toNat = ceilDiv s.length.toNat s.bpf.toNat

/-- R43.4: the next data frame is one of 1 .. FCOUNT, and the cursor is its payload offset, below LENGTH. -/
def AtData (s : State) : Prop :=
  1 ≤ s.fidx.toNat ∧ s.fidx.toNat ≤ s.fcount.toNat ∧
  s.cursor.toNat = (s.fidx.toNat - 1) * s.bpf.toNat ∧ s.cursor.toNat < s.length.toNat

/-- R43.5, R43.7: every frame and every byte is done. -/
def AtEnd (s : State) : Prop := s.fidx.toNat = s.fcount.toNat + 1 ∧ s.cursor = s.length

/-- The invariants between any two agent steps: R43, with what R29, R36, R42 and R55 say of ERRCODE, RATE, FB and
PBUF. -/
structure Inv (s : State) : Prop where
  params_legal : s.params.legal = true
  held : s.heldFault = none
  errcode_iff : s.errcode ≠ 0 ↔ s.mode = Mode.error
  fb_none : s.fb = none
  pbuf_wf : s.pbuf.wf
  pbuf_range : ∀ c ∈ s.pbuf, c.1 < s.params.pbufSize
  length_le : s.length.toNat ≤ s.params.pbufSize
  enc_rate : s.mode = Mode.enc → s.rate ≠ 0
  enc_latched : s.mode = Mode.enc → Latched s
  enc_load : s.mode = Mode.enc → s.phase = Phase.encLoad →
    s.length = 0 ∧ s.fcount = 0 ∧ s.fidx = 0 ∧ s.cursor = 0
  enc_meta : s.mode = Mode.enc → s.phase = Phase.encMeta →
    1 ≤ s.length.toNat ∧ Counted s ∧ s.fidx = 0 ∧ s.cursor = 0 ∧ HoldsPayload s
  enc_data : s.mode = Mode.enc → s.phase = Phase.encData → Counted s ∧ AtData s ∧ HoldsPayload s
  enc_finish : s.mode = Mode.enc → s.phase = Phase.encFinish → Counted s ∧ AtEnd s ∧ HoldsPayload s
  dec_meta : s.mode = Mode.dec → s.phase = Phase.decMeta →
    s.length = 0 ∧ s.bpf = 0 ∧ s.fcount = 0 ∧ s.fidx = 0 ∧ s.cursor = 0
  dec_data : s.mode = Mode.dec → s.phase = Phase.decData →
    Latched s ∧ Counted s ∧ AtData s ∧ PbufHolds s.pbuf s.cursor.toNat
  dec_commit : s.mode = Mode.dec → s.phase = Phase.decCommit →
    Latched s ∧ Counted s ∧ AtEnd s ∧ PbufHolds s.pbuf s.length.toNat
  done : s.mode = Mode.done → Counted s ∧ AtEnd s

/-! ### The order at the writer's port (R65, R150) -/

/-- Where the writer stands after a history: no video open; one open with this many PUTs answered OK; or a request
was answered ERR and a DISCARD is due. -/
inductive Writer where
  | closed
  | writing (puts : Nat)
  | failing
  deriving DecidableEq, Repr

/-- One event at the writer: nothing where R65's order forbids it. BEGIN only when closed; PUT and FINISH only after
a BEGIN answered OK; FINISH never with zero frames; after an ERR answer DISCARD comes next, before any other event. -/
def writerNext : Writer → Event → Option Writer
  | .closed, .vwBegin _ _ _ .ok => some (.writing 0)
  | .closed, .vwBegin _ _ _ .err => some .failing
  | .closed, .vwPut _ _ => none
  | .closed, .vwFinish _ => none
  | .closed, .vwDiscard => none
  | .writing _, .vwBegin _ _ _ _ => none
  | .writing k, .vwPut _ .ok => some (.writing (k + 1))
  | .writing _, .vwPut _ .err => some .failing
  | .writing 0, .vwFinish _ => none
  | .writing (_ + 1), .vwFinish .ok => some .closed
  | .writing (_ + 1), .vwFinish .err => some .failing
  | .writing _, .vwDiscard => some .closed
  | .failing, .vwDiscard => some .closed
  | .failing, _ => none
  | w, _ => some w

/-- The writer after a list of events, from where it stood; nothing once the order is broken. -/
def writerAfter (w : Writer) : List Event → Option Writer
  | [] => some w
  | e :: H => (writerNext w e).bind fun w' => writerAfter w' H

/-! ### The order at the reader's port (R66, R177) -/

/-- Where the reader stands after a history: nothing of the stream was taken since the last RELEASE; frames were;
or the stream ended or failed and a RELEASE is due. -/
inductive Reader where
  | fresh
  | reading
  | ended
  deriving DecidableEq, Repr

/-- One event at the reader: NEXT never after an EOS or ERR answer, RELEASE next. -/
def readerNext : Reader → Event → Option Reader
  | .ended, .vrRelease => some .fresh
  | .ended, _ => none
  | _, .vrNext (.frame _) => some .reading
  | _, .vrNext .eos => some .ended
  | _, .vrNext .err => some .ended
  | _, .vrRelease => some .fresh
  | r, _ => some r

/-- The reader after a list of events, from where it stood; nothing once the order is broken. -/
def readerAfter (r : Reader) : List Event → Option Reader
  | [] => some r
  | e :: H => (readerNext r e).bind fun r' => readerAfter r' H

/-- The history keeps the writer's order, and the writer stands where STATUS says: open with FIDX frames handed
over exactly when VW_OPEN is 1 (R31). -/
def WriterInOrder (s : State) : Prop :=
  writerAfter .closed s.hist = some (if s.vwOpen then .writing s.fidx.toNat else .closed)

/-- The history keeps the reader's order, and frames were taken without a RELEASE exactly in the DATA phase of a
decode; when VR_HELD is 0 nothing is due (R32). -/
def ReaderInOrder (s : State) : Prop :=
  readerAfter .fresh s.hist =
    some (if s.mode = Mode.dec ∧ s.phase = Phase.decData then .reading else .fresh)

/-! ### Whole operations (R105, R147, R152, R180) -/

/-- Payload bytes of data frame j + 1: off .. off + cnt - 1 with off = j * BPF (R105). -/
def chunkAt (P : List Byte) (bpf j : Nat) : List Byte := (P.drop (j * bpf)).take bpf

/-- The data frames of a payload (R147). -/
def dataFrames (w h : Nat) (P : List Byte) : List Frame :=
  (List.range (ceilDiv P.length (bytesPerFrame w h))).map fun j => packFrame w h (chunkAt P (bytesPerFrame w h) j)

/-- The FrameSequence of a payload: the metadata frame, then the data frames (R147). -/
def frameSequence (w h : Nat) (P : List Byte) : List Frame :=
  encodeMetadata (BitVec.ofNat 32 P.length) w h :: dataFrames w h P

/-- The events of a whole successful encode (R152). -/
def encodeEvents (w h rate : Nat) (P : List Byte) : List Event :=
  [.srcRead (.bytes P), .vwBegin w h rate .ok] ++ (frameSequence w h P).map (fun F => .vwPut F .ok) ++ [.vwFinish .ok]

/-- The payload the data frames of a decode carry: cnt(j) bytes of frame j (R180). -/
def decodedPayload (w bpf len : Nat) (Fs : List Frame) : List Byte :=
  (Fs.zipIdx.map fun c => unpackFrame c.1 w (chunkLength bpf len (c.2 * bpf))).flatten

/-- The events of a whole successful decode of frame 0 and the data frames (R180). -/
def decodeEvents (F0 : Frame) (Fs : List Frame) : List Event :=
  (F0 :: Fs).map (fun F => .vrNext (.frame F)) ++
    [.vrRelease,
     .snkCommit (decodedPayload F0.w (bytesPerFrame F0.w F0.h) (decodeMetadata F0).toNat Fs) .ok]

/-- R100 said again, as the rule has it: the legal geometries of an instance. -/
abbrev LegalGeometry (p : Params) (w h : Nat) : Prop :=
  w % 8 = 0 ∧ h % 8 = 0 ∧ 32 ≤ w ∧ w ≤ p.maxW ∧ 8 ≤ h ∧ h ≤ p.maxH

/-- It is the Engine's turn, and `rest` are the turns after it: laid down, or because no turn is laid down (log 2). -/
def EngineMoves (s : State) (rest : List Turn) : Prop := s.sched = .engine :: rest ∨ (s.sched = [] ∧ rest = [])

/-- The next turn is the platform's reset. -/
def State.resets (s : State) : Bool :=
  match s.sched with
  | .reset :: _ => true
  | _ => false

/-- No operation runs. -/
def State.idle (s : State) : Bool := modeIdle s.mode

end Sys2Proof.Machine
end

