-- ==== Sys2Proof/Certificates/Slice0/Obligations.lean ====
section
/-! DEFINITION. The statements for the provers. Each docstring names the rule of spec/ it formalises. In all of them
`s.sched = x :: rest` says that turn x comes next in the total order of R72 and is used up by the step (log 2: the
order is the model's own field), and `s.vwAnswer` and its like are the answer the collaborator gives, any value (R70;
log 3). -/

open Sys2Proof Sys2Proof.Machine Host.Outcome

/-! ### Encoding -/

/-- R82, R86: a few words written out from the tables, as the decoder and as the host's table form read them. -/
def Obligations.TableWordsDecode : Prop :=
  decodeCmd 0b00000000000000000000000000000001 = .ok .encStart ∧
  decodeCmd 0b00000000000000000000000000000011 = .ok .abort ∧
  decodeSel 0b010001 = .ok .encData ∧ decodeSel 0b011001 = .ok .encFinish ∧
  decodeSel 0b000010 = .ok .decMeta ∧ decodeSel 0b010010 = .ok .decCommit ∧
  decodeTableWord 32 2 = some .decStart ∧ decodeTableWord 8 10 = some .decData

/-- R82, R86: every instruction is well formed, and of all the words of both formats exactly its encoding decodes to
it. -/
def Obligations.EncodedInstructionDecodes : Prop :=
  ∀ i : Instr, i.wellFormed = true ∧ decode (encode i) = .ok i ∧ ∀ e : Encoded, decode e = .ok i → e = encode i

/-- R82: a command word selects a command exactly when it equals that command's value. -/
def Obligations.CommandWordsOfTheTable : Prop :=
  ∀ v : Word,
    (decodeCmd v = .ok .encStart ↔ v = 0x00000001) ∧ (decodeCmd v = .ok .decStart ↔ v = 0x00000002) ∧
    (decodeCmd v = .ok .abort ↔ v = 0x00000003) ∧ (decodeCmd v = .ok .clear ↔ v = 0x00000004) ∧
    ∀ i, decodeCmd v = .ok i → encode i = .cmd v

/-- R86: what the Engine's turn does for every value of S = STATUS[5:0] = MODE + 8 * PHASE: the seven values of the
table select a step, the values of IDLE, DONE and ERROR none, and on every other value the model faults. (Whose turn it
is, also where none is laid down: log 2.) -/
def Obligations.EngineStepSelection : Prop :=
  ∀ (s : State) (rest : List Turn), EngineMoves s rest →
    s.selector.toNat = s.mode.toNat + 8 * s.phase.toNat ∧ s.selector = s.status.extractLsb' 0 6 ∧
    (s.heldFault = none →
      (s.selector = 0x01 → step s = exec .encLoad { s with sched := rest }) ∧
      (s.selector = 0x09 → step s = exec .encMeta { s with sched := rest }) ∧
      (s.selector = 0x11 → step s = exec .encData { s with sched := rest }) ∧
      (s.selector = 0x19 → step s = exec .encFinish { s with sched := rest }) ∧
      (s.selector = 0x02 → step s = exec .decMeta { s with sched := rest }) ∧
      (s.selector = 0x0A → step s = exec .decData { s with sched := rest }) ∧
      (s.selector = 0x12 → step s = exec .decCommit { s with sched := rest }) ∧
      (s.selector = 0x00 ∨ s.selector = 0x03 ∨ s.selector = 0x04 → step s = next { s with sched := rest })) ∧
    (s.selector ∉ [0x01, 0x09, 0x11, 0x19, 0x02, 0x0A, 0x12, 0x00, 0x03, 0x04] → step s = fault .neverHeldPair)

/-! ### A step runs the decoded instruction -/

/-- R200, R75: a Host write of a command's word to CMD is one step that runs that instruction, after its turn is
used up. -/
def Obligations.CommandWriteRunsInstruction : Prop :=
  ∀ (s : State) (v : Word) (i : Instr) (rest : List Turn), s.heldFault = none → s.sched = .write 0 v :: rest →
    decode (.cmd v) = .ok i → i.wellFormed = true → step s = exec i { s with sched := rest }

/-- R86: the Engine's turn (log 2) is one step that runs the instruction STATUS[5:0] decodes to, after its turn is used
up. -/
def Obligations.EngineTurnRunsInstruction : Prop :=
  ∀ (s : State) (i : Instr) (rest : List Turn), s.heldFault = none → EngineMoves s rest →
    decode (.sel s.selector) = .ok i → i.wellFormed = true → step s = exec i { s with sched := rest }

/-! ### The register port -/

/-- R52: what `read(i)` returns, and that it changes nothing of the block; the value goes to the Host (log 4). -/
def Obligations.RegisterReads : Prop :=
  ∀ (s : State) (i : Index) (rest : List Turn), s.heldFault = none → s.sched = .read i :: rest →
    ∃ v : Word, step s = next { s with sched := rest, reads := s.reads ++ [v] } ∧
      (i = 0 → v = 0) ∧ (i = 1 → v = s.status) ∧ (i = 2 → v.toNat = s.width.toNat) ∧
      (i = 3 → v.toNat = s.height.toNat) ∧ (i = 4 → v = s.rate) ∧ (i = 5 → v = s.length) ∧ (i = 6 → v = s.bpf) ∧
      (i = 7 → v = s.fcount) ∧ (i = 8 → v = s.fidx) ∧ (i = 9 → v = s.cursor) ∧ (10 ≤ i.toNat → v = 0)

/-- R26, R33: the STATUS word, bit by bit: its seven fields, its reserved bits zero, IRQ the irq output. -/
def Obligations.StatusWordLayout : Prop :=
  ∀ s : State,
    s.status.extractLsb' 0 3 = s.mode ∧ s.status.extractLsb' 3 3 = s.phase ∧ s.status.extractLsb' 6 2 = 0 ∧
    s.status.extractLsb' 8 8 = s.errcode ∧ s.status.extractLsb' 16 2 = s.lastcmd ∧
    s.status.getLsbD 18 = (decide (s.mode = 1) && (decide (s.phase = 2) || decide (s.phase = 3))) ∧
    s.status.getLsbD 19 = (decide (s.mode = 2) && (decide (s.phase = 0) || decide (s.phase = 1))) ∧
    s.status.getLsbD 20 = s.irq ∧ s.irq = (decide (s.mode = 3) || decide (s.mode = 4)) ∧
    s.status.extractLsb' 21 11 = 0

/-- R53: what `write(i, v)` does to every word: word 0 issues the command that v encodes (what each does: the
commands' statements), the configuration words take it while no operation runs, the others ignore it. -/
def Obligations.RegisterWrites : Prop :=
  ∀ (s : State) (i : Index) (v : Word) (rest : List Turn), s.heldFault = none → s.sched = .write i v :: rest →
    (s.mode = 0 ∨ s.mode = 3 ∨ s.mode = 4 →
      (i = 2 → step s = next { s with sched := rest, width := v.extractLsb' 0 16 }) ∧
      (i = 3 → step s = next { s with sched := rest, height := v.extractLsb' 0 16 }) ∧
      (i = 4 → step s = next { s with sched := rest, rate := v })) ∧
    (s.mode = 1 ∨ s.mode = 2 → i = 2 ∨ i = 3 ∨ i = 4 → step s = next { s with sched := rest }) ∧
    (i = 1 ∨ 5 ≤ i.toNat → step s = next { s with sched := rest }) ∧
    (i = 0 → ∀ c, decodeCmd v = .ok c → step s = exec c { s with sched := rest }) ∧
    (i = 0 → (∀ c, decodeCmd v ≠ .ok c) → step s = next { s with sched := rest, lastcmd := 1 })

/-- R54: words 10 to 63 read 0, ignore writes, and neither has a side effect. -/
def Obligations.ReservedWordsInert : Prop :=
  ∀ (s : State) (i : Index) (rest : List Turn), s.heldFault = none → 10 ≤ i.toNat →
    (s.sched = .read i :: rest → step s = next { s with sched := rest, reads := s.reads ++ [0] }) ∧
    ∀ v : Word, s.sched = .write i v :: rest → step s = next { s with sched := rest }

/-- R84: a write of any other value than the four to CMD sets LASTCMD to ILLEGAL and changes nothing else, in
every MODE. -/
def Obligations.IllegalCommandWord : Prop :=
  ∀ (s : State) (v : Word) (rest : List Turn), s.heldFault = none → s.sched = .write 0 v :: rest →
    v ∉ [0x00000001, 0x00000002, 0x00000003, 0x00000004] → step s = next { s with sched := rest, lastcmd := 1 }

/-- R250, 93_implementation_defined.md section 3: in a state that holds a value the spec says is never held, every
turn but a reset is a model fault. -/
def Obligations.NeverHeldValuesFault : Prop :=
  ∀ s : State, s.resets = false →
    (5 ≤ s.mode.toNat ∨ (s.mode = 1 ∧ 4 ≤ s.phase.toNat) ∨ (s.mode = 2 ∧ 3 ≤ s.phase.toNat) ∨
      (s.mode ≠ 1 ∧ s.mode ≠ 2 ∧ s.phase ≠ 0) → step s = fault .neverHeldPair) ∧
    (pairHeld s.mode s.phase = true →
      s.errcode ∉ [0x00, 0x01, 0x02, 0x03, 0x04, 0x05, 0x06, 0x10, 0x11, 0x12, 0x13] →
        step s = fault .neverHeldErrcode) ∧
    (pairHeld s.mode s.phase = true → errcodeHeld s.errcode = true → s.lastcmd = 3 →
      step s = fault .neverHeldLastcmd)

/-! ### Reset -/

/-- R44: the state after reset. -/
def Obligations.ResetValues : Prop :=
  State.reset.mode = 0 ∧ State.reset.phase = 0 ∧ State.reset.errcode = 0 ∧ State.reset.lastcmd = 0 ∧
  State.reset.status = 0x00000000 ∧ State.reset.irq = false ∧ State.reset.vwOpen = false ∧
  State.reset.vrHeld = false ∧ State.reset.width = 0 ∧ State.reset.height = 0 ∧ State.reset.rate = 0 ∧
  State.reset.length = 0 ∧ State.reset.bpf = 0 ∧ State.reset.fcount = 0 ∧ State.reset.fidx = 0 ∧
  State.reset.cursor = 0 ∧ (∀ a, State.reset.pbuf.read a = none) ∧ State.reset.fb = none ∧ State.reset.hist = []

/-- R260, R261: a reset at any time, in any state, sets every state element to its value after reset and emits no
event (the history is empty). The instance's parameters and the world outside the block stay. -/
def Obligations.ResetFromAnyState : Prop :=
  ∀ (s : State) (rest : List Turn), s.sched = .reset :: rest →
    step s = next { State.reset with
      params := s.params, sched := rest, vwIn := s.vwIn, vrIn := s.vrIn, srcIn := s.srcIn, snkIn := s.snkIn
      draws := s.draws, reads := s.reads }

/-! ### Commands -/

/-- R201 (with the table of R200): ENC_START, DEC_START and CLEAR while an operation runs change only LASTCMD. -/
def Obligations.CommandsRefusedWhileRunning : Prop :=
  ∀ s : State, s.mode = 1 ∨ s.mode = 2 →
    exec .encStart s = next { s with lastcmd := 2 } ∧ exec .decStart s = next { s with lastcmd := 2 } ∧
    exec .clear s = next { s with lastcmd := 2 }

/-- R202: ENC_START from IDLE, DONE or ERROR: the geometry error, the rate error, or the start of an encode. -/
def Obligations.EncStartByItsRule : Prop :=
  ∀ s : State, s.mode = 0 ∨ s.mode = 3 ∨ s.mode = 4 →
    (¬LegalGeometry s.params s.width.toNat s.height.toNat →
      exec .encStart s = next { s with
        lastcmd := 0, errcode := 0x03, mode := 4, phase := 0
        length := 0, bpf := 0, fcount := 0, fidx := 0, cursor := 0 }) ∧
    (LegalGeometry s.params s.width.toNat s.height.toNat → s.rate = 0 →
      exec .encStart s = next { s with
        lastcmd := 0, errcode := 0x13, mode := 4, phase := 0
        length := 0, bpf := 0, fcount := 0, fidx := 0, cursor := 0 }) ∧
    (LegalGeometry s.params s.width.toNat s.height.toNat → s.rate ≠ 0 →
      exec .encStart s = next { s with
        lastcmd := 0, errcode := 0, mode := 1, phase := 0
        length := 0, bpf := BitVec.ofNat 32 (s.width.toNat * s.height.toNat / 8), fcount := 0, fidx := 0
        cursor := 0 })

/-- R205: DEC_START from IDLE, DONE or ERROR. -/
def Obligations.DecStartByItsRule : Prop :=
  ∀ s : State, s.mode = 0 ∨ s.mode = 3 ∨ s.mode = 4 →
    exec .decStart s = next { s with
      lastcmd := 0, errcode := 0, mode := 2, phase := 0
      length := 0, bpf := 0, fcount := 0, fidx := 0, cursor := 0 }

/-- R210: ABORT in every MODE and PHASE: the open writer is discarded, the held reader released, the operation
ends with Aborted; with no operation running only LASTCMD changes. -/
def Obligations.AbortByItsRule : Prop :=
  ∀ s : State,
    (s.mode = 1 → s.phase = 2 ∨ s.phase = 3 →
      exec .abort s = next { s with
        lastcmd := 0, hist := s.hist ++ [.vwDiscard], mode := 4, phase := 0, errcode := 0x12 }) ∧
    (s.mode = 1 → ¬(s.phase = 2 ∨ s.phase = 3) →
      exec .abort s = next { s with lastcmd := 0, mode := 4, phase := 0, errcode := 0x12 }) ∧
    (s.mode = 2 → s.phase = 0 ∨ s.phase = 1 →
      exec .abort s = next { s with
        lastcmd := 0, hist := s.hist ++ [.vrRelease], mode := 4, phase := 0, errcode := 0x12 }) ∧
    (s.mode = 2 → ¬(s.phase = 0 ∨ s.phase = 1) →
      exec .abort s = next { s with lastcmd := 0, mode := 4, phase := 0, errcode := 0x12 }) ∧
    (s.mode = 0 ∨ s.mode = 3 ∨ s.mode = 4 → exec .abort s = next { s with lastcmd := 0 })

/-- R214: CLEAR from DONE or ERROR returns to IDLE, from IDLE changes only LASTCMD, and is refused otherwise. -/
def Obligations.ClearByItsRule : Prop :=
  ∀ s : State,
    (s.mode = 3 ∨ s.mode = 4 → exec .clear s = next { s with lastcmd := 0, mode := 0, errcode := 0 }) ∧
    (s.mode = 0 → exec .clear s = next { s with lastcmd := 0 }) ∧
    (s.mode = 1 ∨ s.mode = 2 → exec .clear s = next { s with lastcmd := 2 })

/-- The frame of the four commands: no configuration register, no byte of PBUF, no frame buffer and nothing outside
the block changes; ABORT and CLEAR leave the operation registers; only ABORT emits, at most one event. -/
def Obligations.CommandFrames : Prop :=
  ∀ (i : Instr) (s t : State), i = .encStart ∨ i = .decStart ∨ i = .abort ∨ i = .clear → exec i s = next t →
    t.params = s.params ∧ t.width = s.width ∧ t.height = s.height ∧ t.rate = s.rate ∧
    (∀ a, t.pbuf.read a = s.pbuf.read a) ∧ t.fb = s.fb ∧
    t.sched = s.sched ∧ t.vwIn = s.vwIn ∧ t.vrIn = s.vrIn ∧ t.srcIn = s.srcIn ∧ t.snkIn = s.snkIn ∧
    t.draws = s.draws ∧ t.reads = s.reads ∧
    (i = .abort ∨ i = .clear → t.length = s.length ∧ t.bpf = s.bpf ∧ t.fcount = s.fcount ∧ t.fidx = s.fidx ∧
      t.cursor = s.cursor) ∧
    (i ≠ .abort → t.hist = s.hist) ∧
    (t.hist = s.hist ∨ t.hist = s.hist ++ [.vwDiscard] ∨ t.hist = s.hist ++ [.vrRelease])

/-! ### Encoder steps -/

/-- R140: ENC_LOAD, whatever SRC answers: the three errors in their order, or the payload in PBUF. (Where a result
exceeds its register or BPF is 0, never in an encode, the equations hold by log 5.) -/
def Obligations.EncLoadByItsRule : Prop :=
  ∀ s : State,
    (s.srcAnswer = .err →
      exec .encLoad s = next { s.srcTaken with
        hist := s.hist ++ [.srcRead .err], mode := 4, phase := 0, errcode := 0x01 }) ∧
    ∀ B, s.srcAnswer = .bytes B →
      (B = [] →
        exec .encLoad s = next { s.srcTaken with
          hist := s.hist ++ [.srcRead (.bytes B)], mode := 4, phase := 0, errcode := 0x02 }) ∧
      (s.params.pbufSize < B.length → B ≠ [] →
        exec .encLoad s = next { s.srcTaken with
          hist := s.hist ++ [.srcRead (.bytes B)], mode := 4, phase := 0, errcode := 0x10 }) ∧
      (B.length ≤ s.params.pbufSize → B ≠ [] →
        exec .encLoad s = next { s.srcTaken with
          hist := s.hist ++ [.srcRead (.bytes B)]
          pbuf := s.pbuf.writeBytes 0 B
          length := BitVec.ofNat 32 B.length
          fcount := BitVec.ofNat 32 ((B.length + s.bpf.toNat - 1) / s.bpf.toNat)
          phase := 1 })

/-- R143: ENC_META: BEGIN, then the metadata frame as the first PUT; an ERR answer to either is followed by
DISCARD. Where the frame has no 32 header pixels (never in an encode: R43) a BEGIN answered OK ends in the model's
pixel fault (R250). -/
def Obligations.EncMetaByItsRule : Prop :=
  ∀ s : State,
    (s.vwAnswer = .err →
      exec .encMeta s = next { s.vwTaken with
        hist := s.hist ++ [.vwBegin s.width.toNat s.height.toNat s.rate.toNat .err, .vwDiscard]
        mode := 4, phase := 0, errcode := 0x04 }) ∧
    (s.vwAnswer = .ok → 32 ≤ s.width.toNat → 1 ≤ s.height.toNat →
      (s.vwTaken.vwAnswer = .err →
        exec .encMeta s = next { s.vwTaken.vwTaken with
          fb := none
          hist := s.hist ++ [.vwBegin s.width.toNat s.height.toNat s.rate.toNat .ok,
            .vwPut (encodeMetadata s.length s.width.toNat s.height.toNat) .err, .vwDiscard]
          mode := 4, phase := 0, errcode := 0x04 }) ∧
      (s.vwTaken.vwAnswer = .ok →
        exec .encMeta s = next { s.vwTaken.vwTaken with
          fb := none
          hist := s.hist ++ [.vwBegin s.width.toNat s.height.toNat s.rate.toNat .ok,
            .vwPut (encodeMetadata s.length s.width.toNat s.height.toNat) .ok]
          fidx := 1, phase := 2 })) ∧
    (s.vwAnswer = .ok → ¬(32 ≤ s.width.toNat ∧ 1 ≤ s.height.toNat) → exec .encMeta s = fault .pixelOutsideFrame)

/-- R146: ENC_DATA: m = min(BPF, LENGTH - CURSOR) bytes from CURSOR on, rendered as one frame and handed over; the
cursor and the frame index advance only when the PUT is answered OK, and the last data frame ends the phase. (CURSOR
past LENGTH and results past 32 bits, never in an encode: log 5.) -/
def Obligations.EncDataByItsRule : Prop :=
  ∀ (s : State) (m : Nat) (B : List Byte), m = min s.bpf.toNat (s.length.toNat - s.cursor.toNat) →
    s.cursor.toNat + m ≤ s.params.pbufSize → s.pbuf.readBytes s.cursor.toNat m = some B →
    s.width.toNat % 8 = 0 → m ≤ s.width.toNat * s.height.toNat / 8 →
      (s.vwAnswer = .err →
        exec .encData s = next { s.vwTaken with
          fb := none, hist := s.hist ++ [.vwPut (packFrame s.width.toNat s.height.toNat B) .err, .vwDiscard]
          mode := 4, phase := 0, errcode := 0x04 }) ∧
      (s.vwAnswer = .ok →
        exec .encData s = next { s.vwTaken with
          fb := none, hist := s.hist ++ [.vwPut (packFrame s.width.toNat s.height.toNat B) .ok]
          cursor := BitVec.ofNat 32 (s.cursor.toNat + m)
          fidx := BitVec.ofNat 32 (s.fidx.toNat + 1)
          phase := if s.fidx = s.fcount then 3 else s.phase })

/-- R149: ENC_FINISH. -/
def Obligations.EncFinishByItsRule : Prop :=
  ∀ s : State,
    (s.vwAnswer = .err →
      exec .encFinish s = next { s.vwTaken with
        hist := s.hist ++ [.vwFinish .err, .vwDiscard], mode := 4, phase := 0, errcode := 0x04 }) ∧
    (s.vwAnswer = .ok →
      exec .encFinish s = next { s.vwTaken with hist := s.hist ++ [.vwFinish .ok], mode := 3, phase := 0 })

/-- The frame of the encoder's four steps: what each leaves. ENC_LOAD stores at 0 .. |B|-1 and nowhere else; the
other three store nothing. -/
def Obligations.EncoderFrames : Prop :=
  ∀ (i : Instr) (s t : State), i = .encLoad ∨ i = .encMeta ∨ i = .encData ∨ i = .encFinish → exec i s = next t →
    t.params = s.params ∧ t.lastcmd = s.lastcmd ∧ t.width = s.width ∧ t.height = s.height ∧ t.rate = s.rate ∧
    t.bpf = s.bpf ∧ t.sched = s.sched ∧ t.reads = s.reads ∧ t.vrIn = s.vrIn ∧ t.snkIn = s.snkIn ∧
    (i ≠ .encLoad → t.srcIn = s.srcIn ∧ t.length = s.length ∧ t.fcount = s.fcount ∧
      ∀ a, t.pbuf.read a = s.pbuf.read a) ∧
    (i = .encLoad → t.vwIn = s.vwIn ∧ t.fb = s.fb ∧
      ∀ a, (∀ B, s.srcAnswer = .bytes B → B.length ≤ a) → t.pbuf.read a = s.pbuf.read a) ∧
    (i ≠ .encMeta → i ≠ .encData → t.fidx = s.fidx) ∧ (i ≠ .encData → t.cursor = s.cursor) ∧
    (s.fb = none → t.fb = none) ∧
    (t.errcode = s.errcode ∨ (t.mode = 4 ∧ t.phase = 0)) ∧ (t.mode = s.mode ∨ (t.mode ≠ s.mode ∧ t.phase = 0))

/-! ### Decoder steps -/

/-- R170: DEC_META, whatever VR answers: the errors in their order, each with the RELEASE, or frame 0's geometry
and length latched; a header of 0 goes straight to COMMIT. (Parameters past R6's bounds, where a side would not fit
its register: log 5.) -/
def Obligations.DecMetaByItsRule : Prop :=
  ∀ s : State,
    (s.vrAnswer = .eos →
      exec .decMeta s = next { s.vrTaken with
        hist := s.hist ++ [.vrNext .eos, .vrRelease], mode := 4, phase := 0, errcode := 0x06 }) ∧
    (s.vrAnswer = .err →
      exec .decMeta s = next { s.vrTaken with
        hist := s.hist ++ [.vrNext .err, .vrRelease], mode := 4, phase := 0, errcode := 0x05 }) ∧
    ∀ F, s.vrAnswer = .frame F →
      (¬LegalGeometry s.params F.w F.h →
        exec .decMeta s = next { s.vrTaken with
          fb := none, hist := s.hist ++ [.vrNext (.frame F), .vrRelease]
          mode := 4, phase := 0, errcode := 0x03 }) ∧
      (LegalGeometry s.params F.w F.h → s.params.pbufSize < (decodeMetadata F).toNat →
        exec .decMeta s = next { s.vrTaken with
          fb := none, hist := s.hist ++ [.vrNext (.frame F), .vrRelease]
          mode := 4, phase := 0, errcode := 0x10 }) ∧
      (LegalGeometry s.params F.w F.h → (decodeMetadata F).toNat ≤ s.params.pbufSize → decodeMetadata F ≠ 0 →
        exec .decMeta s = next { s.vrTaken with
          fb := none, hist := s.hist ++ [.vrNext (.frame F)]
          width := BitVec.ofNat 16 F.w, height := BitVec.ofNat 16 F.h
          bpf := BitVec.ofNat 32 (F.w * F.h / 8), length := decodeMetadata F
          fcount := BitVec.ofNat 32 (((decodeMetadata F).toNat + F.w * F.h / 8 - 1) / (F.w * F.h / 8))
          fidx := 1, phase := 1 }) ∧
      (LegalGeometry s.params F.w F.h → decodeMetadata F = 0 →
        exec .decMeta s = next { s.vrTaken with
          fb := none, hist := s.hist ++ [.vrNext (.frame F), .vrRelease]
          width := BitVec.ofNat 16 F.w, height := BitVec.ofNat 16 F.h
          bpf := BitVec.ofNat 32 (F.w * F.h / 8), length := 0, fcount := 0
          fidx := 1, phase := 2 })

/-- R173: DEC_DATA, whatever VR answers: the errors in their order, each with the RELEASE and no byte written, or
the frame's first m bytes appended at CURSOR; the last needed frame releases the reader. (CURSOR past LENGTH and
results past 32 bits, never in a decode: log 5.) -/
def Obligations.DecDataByItsRule : Prop :=
  ∀ (s : State) (m : Nat), m = min s.bpf.toNat (s.length.toNat - s.cursor.toNat) →
    (s.vrAnswer = .eos →
      exec .decData s = next { s.vrTaken with
        hist := s.hist ++ [.vrNext .eos, .vrRelease], mode := 4, phase := 0, errcode := 0x06 }) ∧
    (s.vrAnswer = .err →
      exec .decData s = next { s.vrTaken with
        hist := s.hist ++ [.vrNext .err, .vrRelease], mode := 4, phase := 0, errcode := 0x05 }) ∧
    ∀ F, s.vrAnswer = .frame F →
      (¬(F.w = s.width.toNat ∧ F.h = s.height.toNat) →
        exec .decData s = next { s.vrTaken with
          fb := none, hist := s.hist ++ [.vrNext (.frame F), .vrRelease]
          mode := 4, phase := 0, errcode := 0x03 }) ∧
      (F.w = s.width.toNat → F.h = s.height.toNat → F.w % 8 = 0 → m ≤ F.w * F.h / 8 →
        s.cursor.toNat + m ≤ s.params.pbufSize →
        (s.cursor.toNat + m = s.length.toNat →
          exec .decData s = next { s.vrTaken with
            fb := none, hist := s.hist ++ [.vrNext (.frame F), .vrRelease]
            pbuf := s.pbuf.writeBytes s.cursor.toNat (unpackFrame F s.width.toNat m)
            cursor := s.length, fidx := BitVec.ofNat 32 (s.fidx.toNat + 1), phase := 2 }) ∧
        (s.cursor.toNat + m ≠ s.length.toNat →
          exec .decData s = next { s.vrTaken with
            fb := none, hist := s.hist ++ [.vrNext (.frame F)]
            pbuf := s.pbuf.writeBytes s.cursor.toNat (unpackFrame F s.width.toNat m)
            cursor := BitVec.ofNat 32 (s.cursor.toNat + m), fidx := BitVec.ofNat 32 (s.fidx.toNat + 1) }))

/-- R176: DEC_COMMIT: the LENGTH bytes of PBUF to the sink, once. -/
def Obligations.DecCommitByItsRule : Prop :=
  ∀ (s : State) (B : List Byte), s.length.toNat ≤ s.params.pbufSize → s.pbuf.readBytes 0 s.length.toNat = some B →
    (s.snkAnswer = .err →
      exec .decCommit s = next { s.snkTaken with
        hist := s.hist ++ [.snkCommit B .err], mode := 4, phase := 0, errcode := 0x11 }) ∧
    (s.snkAnswer = .ok →
      exec .decCommit s = next { s.snkTaken with hist := s.hist ++ [.snkCommit B .ok], mode := 3, phase := 0 })

/-- The frame of the decoder's three steps: what each leaves. DEC_DATA stores at CURSOR .. CURSOR+m-1 and nowhere
else, and nothing at all when the frame is refused; the other two store nothing. -/
def Obligations.DecoderFrames : Prop :=
  ∀ (i : Instr) (s t : State), i = .decMeta ∨ i = .decData ∨ i = .decCommit → exec i s = next t →
    t.params = s.params ∧ t.lastcmd = s.lastcmd ∧ t.rate = s.rate ∧ t.sched = s.sched ∧ t.reads = s.reads ∧
    t.vwIn = s.vwIn ∧ t.srcIn = s.srcIn ∧
    (i ≠ .decMeta → t.width = s.width ∧ t.height = s.height ∧ t.length = s.length ∧ t.bpf = s.bpf ∧
      t.fcount = s.fcount) ∧
    (i ≠ .decData → t.cursor = s.cursor ∧ ∀ a, t.pbuf.read a = s.pbuf.read a) ∧
    (i = .decData →
      (∀ a, a < s.cursor.toNat ∨ s.cursor.toNat + s.chunk ≤ a → t.pbuf.read a = s.pbuf.read a) ∧
      (t.mode = 4 → s.mode ≠ 4 → ∀ a, t.pbuf.read a = s.pbuf.read a)) ∧
    (i ≠ .decCommit → t.snkIn = s.snkIn) ∧
    (i = .decCommit → t.vrIn = s.vrIn ∧ t.fb = s.fb ∧ t.fidx = s.fidx) ∧
    (s.fb = none → t.fb = none) ∧
    (t.errcode = s.errcode ∨ (t.mode = 4 ∧ t.phase = 0)) ∧ (t.mode = s.mode ∨ (t.mode ≠ s.mode ∧ t.phase = 0))

/-- R236: errors are precise. An engine step that ends in MODE = ERROR changes only MODE, PHASE, ERRCODE and the
event history (and the answers drawn, which are not the block's state). -/
def Obligations.FailingStepIsPrecise : Prop :=
  ∀ (i : Instr) (s t : State), decodeSel s.selector = .ok i → s.fb = none → exec i s = next t → t.mode = 4 →
    ∃ es, es ≠ [] ∧ t.hist = s.hist ++ es ∧ t.phase = 0 ∧ t.errcode ≠ 0 ∧
      t.params = s.params ∧ t.lastcmd = s.lastcmd ∧ t.width = s.width ∧ t.height = s.height ∧ t.rate = s.rate ∧
      t.length = s.length ∧ t.bpf = s.bpf ∧ t.fcount = s.fcount ∧ t.fidx = s.fidx ∧ t.cursor = s.cursor ∧
      t.pbuf = s.pbuf ∧ t.fb = s.fb

/-! ### The datapath -/

/-- R113.1 and R113.2, R107, R108: encodeByte puts bit j at pixel j and decodeByte is its inverse both ways. -/
def Obligations.ByteCodecIsBijection : Prop :=
  (∀ b : Byte, (encodeByte b).length = 8) ∧
  (∀ (b : Byte) (j : Nat), j < 8 → (encodeByte b)[j]? = some (b.getLsbD j)) ∧
  (∀ b : Byte, decodeByte (encodeByte b) = b) ∧ (∀ p : List Bool, p.length = 8 → encodeByte (decodeByte p) = p)

/-- R103: frame bytes 0 .. BPF-1 are in bijection with the byte columns and rows of the frame. -/
def Obligations.BytePositionsAreBijection : Prop :=
  ∀ w h : Nat, w % 8 = 0 → 8 ≤ w →
    (∀ k, k < bytesPerFrame w h → (pos w k).1 < w / 8 ∧ (pos w k).2 < h) ∧
    (∀ k k', k < bytesPerFrame w h → k' < bytesPerFrame w h → pos w k = pos w k' → k = k') ∧
    (∀ c r, c < w / 8 → r < h → ∃ k, k < bytesPerFrame w h ∧ pos w k = (c, r))

/-- R109: placeByte sets the 8 pixels of frame byte k to the bits of the byte and leaves every other pixel. -/
def Obligations.PlaceByteSetsItsPixels : Prop :=
  ∀ (F : Frame) (k : Nat) (b : Byte) (x y : Nat), F.w % 8 = 0 → 8 ≤ F.w → k < bytesPerFrame F.w F.h →
    x < F.w → y < F.h →
    getPix (placeByte F F.w k b) x y =
      if y = k / (F.w / 8) ∧ x / 8 = k % (F.w / 8) then b.getLsbD (x % 8) else getPix F x y

/-- R111, R115, R116, R102: a packed frame has the geometry asked for, and its pixel (x, y) is bit x mod 8 of frame
byte y * (W/8) + x div 8; past the last byte every pixel is black. -/
def Obligations.PackedFramePixels : Prop :=
  ∀ (w h : Nat) (B : List Byte) (x y : Nat), w % 8 = 0 → 8 ≤ w → B.length ≤ bytesPerFrame w h → x < w → y < h →
    (packFrame w h B).w = w ∧ (packFrame w h B).h = h ∧
    getPix (packFrame w h B) x y = (B.getD (y * (w / 8) + x / 8) 0).getLsbD (x % 8)

/-- R113.3: what was packed into a frame unpacks. -/
def Obligations.UnpackInvertsPack : Prop :=
  ∀ (w h : Nat) (B : List Byte), w % 8 = 0 → 8 ≤ w → B.length ≤ bytesPerFrame w h →
    unpackFrame (packFrame w h B) w B.length = B

/-- R110, R112, R116: unpacking m bytes reads only the pixels of frame bytes 0 .. m-1: padding is never read. -/
def Obligations.UnpackIgnoresPadding : Prop :=
  ∀ (F G : Frame) (m : Nat), F.w % 8 = 0 → 8 ≤ F.w → G.w = F.w → G.h = F.h → m ≤ bytesPerFrame F.w F.h →
    (∀ x y, x < F.w → y < F.h → y * (F.w / 8) + x / 8 < m → getPix F x y = getPix G x y) →
    unpackFrame F F.w m = unpackFrame G F.w m

/-- R120: pixel (i, 0) of the metadata frame is bit i of the length for i in 0..31; every other pixel is black. -/
def Obligations.MetadataFramePixels : Prop :=
  ∀ (len : Word) (w h x y : Nat), 32 ≤ w → 1 ≤ h →
    (encodeMetadata len w h).w = w ∧ (encodeMetadata len w h).h = h ∧
    getPix (encodeMetadata len w h) x y = (decide (y = 0 ∧ x < 32) && len.getLsbD x)

/-- R125: the length header round-trips for every 32-bit length, and decoding it depends only on pixels (0..31, 0). -/
def Obligations.MetadataRoundTrip : Prop :=
  (∀ (len : Word) (w h : Nat), 32 ≤ w → 1 ≤ h → decodeMetadata (encodeMetadata len w h) = len) ∧
  (∀ F G : Frame, (∀ x, x < 32 → getPix F x 0 = getPix G x 0) → decodeMetadata F = decodeMetadata G)

/-- R124: the metadata frame is the data frame of the length's four bytes, least significant first. -/
def Obligations.HeaderIsLittleEndianBytes : Prop :=
  ∀ (len : Word) (w h : Nat), w % 8 = 0 → 32 ≤ w → 1 ≤ h →
    encodeMetadata len w h =
      packFrame w h [len.extractLsb' 0 8, len.extractLsb' 8 8, len.extractLsb' 16 8, len.extractLsb' 24 8]

/-- R104, R105: n = ceilDiv(L, BPF) data frames are enough and none is empty: every frame but the last is full, the
last holds 1 .. BPF bytes, and the frames' bytes add up to L. -/
def Obligations.FrameCountLaw : Prop :=
  ∀ len bpf : Nat, 1 ≤ bpf → 1 ≤ len →
    (ceilDiv len bpf - 1) * bpf < len ∧ len ≤ ceilDiv len bpf * bpf ∧
    (∀ j, 1 ≤ j → j < ceilDiv len bpf → chunkLength bpf len ((j - 1) * bpf) = bpf) ∧
    (1 ≤ chunkLength bpf len ((ceilDiv len bpf - 1) * bpf) ∧
      chunkLength bpf len ((ceilDiv len bpf - 1) * bpf) ≤ bpf) ∧
    ((List.range (ceilDiv len bpf)).map fun j => chunkLength bpf len (j * bpf)).sum = len

/-- R106: the bounds on every value the codec computes. Under legal parameters and a legal geometry W, H, BPF, L and n
fit their registers and no frame's bytes go past L; while an operation runs FIDX is at most n + 1 and CURSOR at most L,
and so they are when it is DONE. -/
def Obligations.ComputedValuesFit : Prop :=
  (∀ (p : Params) (w h len : Nat), p.legal = true → LegalGeometry p w h → len ≤ p.pbufSize →
    w ≤ 65528 ∧ h ≤ 65528 ∧ 32 ≤ bytesPerFrame w h ∧ bytesPerFrame w h ≤ 536739848 ∧ len ≤ 2 ^ 32 - 1 ∧
    ceilDiv len (bytesPerFrame w h) ≤ len ∧ ceilDiv len (bytesPerFrame w h) ≤ 2 ^ 27 ∧
    ∀ j, 1 ≤ j → j ≤ ceilDiv len (bytesPerFrame w h) →
      (j - 1) * bytesPerFrame w h + chunkLength (bytesPerFrame w h) len ((j - 1) * bytesPerFrame w h) ≤ len) ∧
  (∀ s : State, Inv s →
    (s.mode = 1 ∨ s.mode = 2 → s.fcount.toNat ≤ 2 ^ 27 ∧ s.fidx.toNat ≤ 2 ^ 27 + 1) ∧
    (s.mode = 1 ∨ s.mode = 2 ∨ s.mode = 3 →
      s.fidx.toNat ≤ s.fcount.toNat + 1 ∧ s.cursor.toNat ≤ s.length.toNat ∧ s.length.toNat ≤ s.params.pbufSize))

/-! ### The payload buffer -/

/-- R57: MemWrite of a range inside PBUF: the cells of the range hold the bytes, every other cell keeps its
contents. That the canonical form is kept speaks of the model's own representation of PBUF (log 10), not of R57. (Where
a range is not inside PBUF: BrokenPreconditionsFault.) -/
def Obligations.MemWriteByItsRule : Prop :=
  ∀ (s : State) (a : Nat) (B : List Byte), a + B.length ≤ s.params.pbufSize →
    ∃ t, s.memWrite a B = .ok t ∧ (∀ k, k < B.length → t.pbuf.read (a + k) = B[k]?) ∧
      (∀ x, x < a ∨ a + B.length ≤ x → t.pbuf.read x = s.pbuf.read x) ∧ (s.pbuf.wf → t.pbuf.wf)

/-- R56: MemRead of n cells that all lie inside PBUF and hold values gives their bytes in order; a cell with no
value, or a range not inside PBUF, is a model fault. -/
def Obligations.MemReadByItsRule : Prop :=
  ∀ (s : State) (a n : Nat),
    (a + n ≤ s.params.pbufSize → (∀ k, k < n → (s.pbuf.read (a + k)).isSome = true) →
      ∃ B, s.memRead a n = .ok B ∧ B.length = n ∧ ∀ k, k < n → B[k]? = s.pbuf.read (a + k)) ∧
    (a + n ≤ s.params.pbufSize → (∃ k, k < n ∧ s.pbuf.read (a + k) = none) → s.memRead a n = .error .pbufNoValue) ∧
    (s.params.pbufSize < a + n → s.memRead a n = .error .pbufOutOfRange)

/-- R250, R56, R57, R109: where a meaning ends in a model fault, and which: a MODE outside the table of R200, a
range outside PBUF, a cell with no value, a pixel outside the frame. All of them are broken invariants
(InvariantsExcludeStops). -/
def Obligations.BrokenPreconditionsFault : Prop :=
  (∀ (i : Instr) (s : State), i = .encStart ∨ i = .decStart ∨ i = .abort ∨ i = .clear → 5 ≤ s.mode.toNat →
    exec i s = fault .neverHeldPair) ∧
  (∀ s : State,
    (s.params.pbufSize < s.cursor.toNat + s.chunk → exec .encData s = fault .pbufOutOfRange) ∧
    (s.cursor.toNat + s.chunk ≤ s.params.pbufSize →
      (∃ k, k < s.chunk ∧ s.pbuf.read (s.cursor.toNat + k) = none) → exec .encData s = fault .pbufNoValue) ∧
    (s.cursor.toNat + s.chunk ≤ s.params.pbufSize →
      (∀ k, k < s.chunk → (s.pbuf.read (s.cursor.toNat + k)).isSome = true) →
      bytesInFrame s.width.toNat s.height.toNat s.chunk = false → exec .encData s = fault .pixelOutsideFrame)) ∧
  (∀ (s : State) (F : Frame), s.vrAnswer = .frame F → F.w = s.width.toNat → F.h = s.height.toNat →
    (bytesInFrame F.w F.h s.chunk = false → exec .decData s = fault .pixelOutsideFrame) ∧
    (bytesInFrame F.w F.h s.chunk = true → s.params.pbufSize < s.cursor.toNat + s.chunk →
      exec .decData s = fault .pbufOutOfRange)) ∧
  (∀ s : State,
    (s.params.pbufSize < s.length.toNat → exec .decCommit s = fault .pbufOutOfRange) ∧
    (s.length.toNat ≤ s.params.pbufSize → (∃ k, k < s.length.toNat ∧ s.pbuf.read k = none) →
      exec .decCommit s = fault .pbufNoValue))

/-! ### Invariants of every step -/

/-- R43 at reset, for the default instance. -/
def Obligations.InvariantsHoldAtReset : Prop :=
  Inv State.reset ∧ WriterInOrder State.reset ∧ ReaderInOrder State.reset

/-- R43: the invariants hold between any two agent steps: every step keeps them. -/
def Obligations.StepKeepsInvariants : Prop := ∀ s t : State, Inv s → step s = next t → Inv t

/-- R250, R58: no model fault and no refusal is reachable: wherever the invariants hold, every step answers a next
state. -/
def Obligations.InvariantsExcludeStops : Prop := ∀ s : State, Inv s → ∃ t, step s = next t

/-- R150, R31, R65: every step keeps the order at the writer's port. -/
def Obligations.StepKeepsWriterOrder : Prop :=
  ∀ s t : State, Inv s → WriterInOrder s → step s = next t → WriterInOrder t

/-- R177, R32, R66: every step keeps the order at the reader's port. -/
def Obligations.StepKeepsReaderOrder : Prop :=
  ∀ s t : State, Inv s → ReaderInOrder s → step s = next t → ReaderInOrder t

/-- R177: a step that gives up the reader emits exactly one RELEASE, and no other step emits one. -/
def Obligations.ReaderReleasedExactlyOnce : Prop :=
  ∀ s t : State, s.resets = false → step s = next t →
    ∃ es, t.hist = s.hist ++ es ∧ es.count .vrRelease = (if s.vrHeld = true ∧ t.vrHeld = false then 1 else 0) ∧
      (s.vrHeld = false → ∀ r, .vrNext r ∉ es)

/-- R237, R210: a FINISH or a COMMIT answered OK is emitted exactly by the step that ends an encode or a decode in
DONE; the COMMIT then carries LENGTH bytes. -/
def Obligations.SuccessOnlyAtDone : Prop :=
  ∀ s t : State, Inv s → s.resets = false → step s = next t →
    ∃ es, t.hist = s.hist ++ es ∧
      (.vwFinish .ok ∈ es ↔ s.mode = 1 ∧ t.mode = 3) ∧
      ((∃ B, .snkCommit B .ok ∈ es) ↔ s.mode = 2 ∧ t.mode = 3) ∧
      (∀ B a, .snkCommit B a ∈ es → B.length = s.length.toNat ∧ s.cursor = s.length)

/-- R69, R151: without a reset the history only grows, by at most three events a step. -/
def Obligations.HistoryOnlyGrows : Prop :=
  ∀ s t : State, s.resets = false → step s = next t → ∃ es, t.hist = s.hist ++ es ∧ es.length ≤ 3

/-- R6, R55: the parameters never change, and PBUF keeps its canonical form, from every state whatever. -/
def Obligations.ParametersAndFormKept : Prop :=
  ∀ s t : State, step s = next t → t.params = s.params ∧ (s.pbuf.wf → t.pbuf.wf)

/-- R40, R41: within an operation CURSOR and FIDX never decrease, and FIDX grows by at most 1 a step, whichever agent's
turn it is (a Host access, a refused command and an ABORT included, a reset excepted); nor do they on any turn of the
Engine (log 2). -/
def Obligations.CursorNeverDecreases : Prop :=
  ∀ s t : State, Inv s → s.resets = false → s.mode = 1 ∨ s.mode = 2 ∨ (∃ rest, EngineMoves s rest) →
    step s = next t →
    s.cursor.toNat ≤ t.cursor.toNat ∧ s.fidx.toNat ≤ t.fidx.toNat ∧ t.fidx.toNat ≤ s.fidx.toNat + 1

/-! ### Whole operations -/

/-- R152, R147, R151: a whole successful encode, from the CMD write on: 1 + (n + 3) steps, its event history and the
final registers. It rests on the model's own fields: no turn is laid down after the START, so that the Engine moves on
(log 2), and the answers of SRC and VW are laid down (log 3). -/
def Obligations.WholeEncode : Prop :=
  ∀ (s : State) (P : List Byte) (restSrc : List SrcAnswer) (restVw : List Ack) (n : Nat),
    Inv s → s.idle = true → s.sched = [.write 0 0x00000001] →
    LegalGeometry s.params s.width.toNat s.height.toNat → s.rate ≠ 0 →
    1 ≤ P.length → P.length ≤ s.params.pbufSize →
    n = ceilDiv P.length (bytesPerFrame s.width.toNat s.height.toNat) →
    s.srcIn = .bytes P :: restSrc → s.vwIn = List.replicate (n + 3) .ok ++ restVw →
    ∃ t, core.run (n + 4) s = next t ∧
      t.hist = s.hist ++ encodeEvents s.width.toNat s.height.toNat s.rate.toNat P ∧
      t.mode = 3 ∧ t.errcode = 0 ∧ t.length.toNat = P.length ∧
      t.bpf.toNat = bytesPerFrame s.width.toNat s.height.toNat ∧ t.fcount.toNat = n ∧ t.fidx.toNat = n + 1 ∧
      t.cursor.toNat = P.length ∧ t.srcIn = restSrc ∧ t.vwIn = restVw

/-- R180, R174, R178: a whole successful decode, from the CMD write on: 1 + (n + 2) steps, its event history, the
committed payload and the final registers; the answers after frame n are never asked for. It rests on the model's own
fields: no turn is laid down after the START (log 2), and the answers of VR and SNK are laid down (log 3). -/
def Obligations.WholeDecode : Prop :=
  ∀ (s : State) (F0 : Frame) (Fs : List Frame) (restVr : List VrAnswer) (restSnk : List Ack),
    Inv s → s.idle = true → s.sched = [.write 0 0x00000002] →
    LegalGeometry s.params F0.w F0.h → (decodeMetadata F0).toNat ≤ s.params.pbufSize →
    (∀ F ∈ Fs, F.w = F0.w ∧ F.h = F0.h) →
    Fs.length = ceilDiv (decodeMetadata F0).toNat (bytesPerFrame F0.w F0.h) →
    s.vrIn = (F0 :: Fs).map .frame ++ restVr → s.snkIn = .ok :: restSnk →
    ∃ t, core.run (Fs.length + 3) s = next t ∧ t.hist = s.hist ++ decodeEvents F0 Fs ∧
      (decodedPayload F0.w (bytesPerFrame F0.w F0.h) (decodeMetadata F0).toNat Fs).length =
        (decodeMetadata F0).toNat ∧
      t.mode = 3 ∧ t.errcode = 0 ∧ t.width.toNat = F0.w ∧ t.height.toNat = F0.h ∧ t.length = decodeMetadata F0 ∧
      t.bpf.toNat = bytesPerFrame F0.w F0.h ∧ t.fcount.toNat = Fs.length ∧ t.fidx.toNat = Fs.length + 1 ∧
      t.cursor = t.length ∧ t.vrIn = restVr

/-- R181.1: a decode whose reader yields the FrameSequence of a payload (and any trailing answers) commits exactly
that payload. It rests on the model's own fields: no turn is laid down after the START (log 2), and the answers of VR
and SNK are laid down (log 3). -/
def Obligations.DecodeInvertsEncode : Prop :=
  ∀ (s : State) (P : List Byte) (w h : Nat) (restVr : List VrAnswer) (restSnk : List Ack),
    Inv s → s.idle = true → s.sched = [.write 0 0x00000002] → LegalGeometry s.params w h →
    1 ≤ P.length → P.length ≤ s.params.pbufSize →
    s.vrIn = (frameSequence w h P).map .frame ++ restVr → s.snkIn = .ok :: restSnk →
    ∃ t, core.run ((dataFrames w h P).length + 3) s = next t ∧ t.mode = 3 ∧
      t.hist.getLast? = some (.snkCommit P .ok)

/-- R151, R178, R281: with the Host silent every operation ends, whatever the collaborators answer, within n + 3
engine steps, where n is at most ceilDiv(PBUF_SIZE, 32) since BPF is at least 32. It rests on the empty list of turns,
with which the Host is silent and the Engine moves (log 2). -/
def Obligations.EveryOperationEnds : Prop :=
  ∀ s : State, Inv s → s.sched = [] →
    ∃ k t, k ≤ ceilDiv s.params.pbufSize 32 + 3 ∧ core.run k s = next t ∧ t.idle = true
end

