-- ==== Sys2Proof/Laws/Arith.lean ====
section
/-! SUPPORT. The arithmetic the rules rest on: legal parameters and geometries, and ceiling division (R6, R100 to
R106, R114). -/

namespace Sys2Proof.Machine

/-- The upper and lower bounds that legal parameters have (R6). -/
theorem Params.legal_bounds {p : Params} (h : p.legal = true) :
    p.maxW ≤ 65528 ∧ p.maxH ≤ 65528 ∧ 1 ≤ p.pbufSize ∧ p.pbufSize ≤ 4294967295 := by
  simp only [Params.legal, Params.legalMaxW, Params.legalMaxH, Params.legalPbufSize, Bool.and_eq_true, beq_iff_eq,
    decide_eq_true_eq] at h
  omega

/-- R100 as a conjunction. -/
theorem validGeom_iff (p : Params) (w h : Nat) :
    validGeom p w h = true ↔ w % 8 = 0 ∧ h % 8 = 0 ∧ 32 ≤ w ∧ w ≤ p.maxW ∧ 8 ≤ h ∧ h ≤ p.maxH := by
  simp only [validGeom, Bool.and_eq_true, beq_iff_eq, decide_eq_true_eq]
  omega

/-- R106: a legal geometry's frame capacity is at least 32 and fits its register; so do its sides. -/
theorem bytesPerFrame_bounds {p : Params} {w h : Nat} (hp : p.legal = true) (hv : validGeom p w h = true) :
    32 ≤ bytesPerFrame w h ∧ bytesPerFrame w h ≤ 536739848 ∧ w ≤ 65528 ∧ h ≤ 65528 := by
  obtain ⟨h1, h2, -⟩ := Params.legal_bounds hp
  obtain ⟨-, -, h3, h4, h5, h6⟩ := (validGeom_iff p w h).1 hv
  have lo : 32 * 8 ≤ w * h := Nat.mul_le_mul h3 h5
  have hi : w * h ≤ 65528 * 65528 := Nat.mul_le_mul (by omega) (by omega)
  unfold bytesPerFrame; omega

/-- R109: under a width that is a multiple of 8, the first BPF frame bytes lie in the frame. -/
theorem bytesInFrame_of_le {w h n : Nat} (hw : w % 8 = 0) (hn : n ≤ bytesPerFrame w h) : bytesInFrame w h n = true := by
  obtain ⟨q, rfl⟩ := Nat.dvd_of_mod_eq_zero hw
  rw [bytesPerFrame, Nat.mul_assoc, Nat.mul_div_cancel_left _ (by decide : 0 < 8)] at hn
  refine List.all_eq_true.2 fun k hk => ?_
  rw [List.mem_range] at hk
  have hq : 0 < q := Nat.pos_of_ne_zero fun h0 => by subst h0; simp at hn; omega
  have hc : k % q < q := Nat.mod_lt _ hq
  have hr : k / q < h := Nat.div_lt_of_lt_mul (by omega)
  simp only [byteInFrame, pos, Nat.mul_div_cancel_left _ (by decide : 0 < 8), Bool.and_eq_true, decide_eq_true_eq]
  omega

/-- R104: n frames are enough. -/
theorem le_ceilDiv_mul {a b : Nat} (hb : 1 ≤ b) : a ≤ ceilDiv a b * b := by
  have hd := Nat.div_add_mod (a + b - 1) b
  have hm := Nat.mod_lt (a + b - 1) (show 0 < b by omega)
  rw [Nat.mul_comm] at hd
  unfold ceilDiv; omega

/-- R104: the last frame is not empty. -/
theorem ceilDiv_pred_mul_lt {a b : Nat} (ha : 1 ≤ a) (hb : 1 ≤ b) : (ceilDiv a b - 1) * b < a := by
  have hd := Nat.div_add_mod (a + b - 1) b
  rw [Nat.mul_comm] at hd
  rw [ceilDiv, Nat.sub_mul]; omega

theorem ceilDiv_pos {a b : Nat} (ha : 1 ≤ a) (hb : 1 ≤ b) : 1 ≤ ceilDiv a b := Nat.div_pos (by omega) (by omega)

/-- R106: n is at most the length. -/
theorem ceilDiv_le {a b : Nat} (ha : 1 ≤ a) (hb : 1 ≤ b) : ceilDiv a b ≤ a := by
  have h := ceilDiv_pred_mul_lt ha hb
  have hm := Nat.mul_le_mul_left (ceilDiv a b - 1) hb
  omega

end Sys2Proof.Machine
end

