-- ==== Sys2Proof/Laws/Codec.lean ====
section
/-! SUPPORT. The pixel laws of the datapath: what each drawing function leaves at each pixel, and bits as numbers. -/

namespace Sys2Proof.Machine

/-! ### Sizes -/

@[simp] theorem blank_w (w h : Nat) : (blank w h).w = w := rfl
@[simp] theorem blank_h (w h : Nat) : (blank w h).h = h := rfl

@[simp] theorem setPix_w (F : Frame) (x y : Nat) (p : Bool) : (setPix F x y p).w = F.w := by
  unfold setPix; split <;> rfl

@[simp] theorem setPix_h (F : Frame) (x y : Nat) (p : Bool) : (setPix F x y p).h = F.h := by
  unfold setPix; split <;> rfl

@[simp] theorem setRun_w (F : Frame) (x y : Nat) (ps : List Bool) : (setRun F x y ps).w = F.w := by
  induction ps generalizing F x with
  | nil => rfl
  | cons p ps ih => simp [setRun, ih]

@[simp] theorem setRun_h (F : Frame) (x y : Nat) (ps : List Bool) : (setRun F x y ps).h = F.h := by
  induction ps generalizing F x with
  | nil => rfl
  | cons p ps ih => simp [setRun, ih]

@[simp] theorem placeByte_w (F : Frame) (w k : Nat) (b : Byte) : (placeByte F w k b).w = F.w := by
  unfold placeByte; exact setRun_w _ _ _ _

@[simp] theorem placeByte_h (F : Frame) (w k : Nat) (b : Byte) : (placeByte F w k b).h = F.h := by
  unfold placeByte; exact setRun_h _ _ _ _

@[simp] theorem placeBytes_nil (F : Frame) (w k : Nat) : placeBytes F w k [] = F := rfl

theorem placeBytes_cons (F : Frame) (w k : Nat) (b : Byte) (B : List Byte) :
    placeBytes F w k (b :: B) = placeBytes (placeByte F w k b) w (k + 1) B := by
  unfold placeBytes; rw [List.zipIdx_cons, List.foldl_cons]

@[simp] theorem placeBytes_w (F : Frame) (w k : Nat) (B : List Byte) : (placeBytes F w k B).w = F.w := by
  induction B generalizing F k with
  | nil => rfl
  | cons b B ih =>
    rw [placeBytes_cons, ih (placeByte F w k b) (k + 1), placeByte_w]

@[simp] theorem placeBytes_h (F : Frame) (w k : Nat) (B : List Byte) : (placeBytes F w k B).h = F.h := by
  induction B generalizing F k with
  | nil => rfl
  | cons b B ih =>
    rw [placeBytes_cons, ih (placeByte F w k b) (k + 1), placeByte_h]

@[simp] theorem packFrame_w (w h : Nat) (B : List Byte) : (packFrame w h B).w = w := by
  unfold packFrame; simp

@[simp] theorem packFrame_h (w h : Nat) (B : List Byte) : (packFrame w h B).h = h := by
  unfold packFrame; simp

@[simp] theorem encodeMetadata_w (len : Word) (w h : Nat) : (encodeMetadata len w h).w = w := by
  unfold encodeMetadata; simp

@[simp] theorem encodeMetadata_h (len : Word) (w h : Nat) : (encodeMetadata len w h).h = h := by
  unfold encodeMetadata; simp

@[simp] theorem length_bitsOf (n v : Nat) : (bitsOf n v).length = n := by simp [bitsOf]
@[simp] theorem length_encodeByte (b : Byte) : (encodeByte b).length = 8 := by simp [encodeByte]
@[simp] theorem length_getRun (F : Frame) (x y n : Nat) : (getRun F x y n).length = n := by simp [getRun]
@[simp] theorem length_unpackFrame (F : Frame) (w m : Nat) : (unpackFrame F w m).length = m := by simp [unpackFrame]

/-! ### Pixels -/

/-- Distinct pixels of a frame are distinct bits. -/
theorem pixel_index_inj {w x y x' y' : Nat} (hx : x < w) (hx' : x' < w) :
    y * w + x = y' * w + x' ↔ x = x' ∧ y = y' := by
  constructor
  · intro h
    have hw : 0 < w := by omega
    have hd : (y * w + x) / w = (y' * w + x') / w := by rw [h]
    have hm : (y * w + x) % w = (y' * w + x') % w := by rw [h]
    rw [Nat.mul_comm y, Nat.mul_comm y', Nat.mul_add_div hw, Nat.mul_add_div hw, Nat.div_eq_of_lt hx,
      Nat.div_eq_of_lt hx'] at hd
    rw [Nat.mul_comm y, Nat.mul_comm y', Nat.mul_add_mod, Nat.mul_add_mod, Nat.mod_eq_of_lt hx,
      Nat.mod_eq_of_lt hx'] at hm
    omega
  · rintro ⟨rfl, rfl⟩; rfl

theorem pixel_index_lt {w h x y : Nat} (hx : x < w) (hy : y < h) : y * w + x < w * h := by
  have h1 : y * w + w ≤ h * w := by
    have := Nat.mul_le_mul_right w (Nat.succ_le_of_lt hy); rwa [Nat.succ_mul] at this
  rw [Nat.mul_comm w h]; omega

/-- R101: every pixel of the blank frame is black. -/
@[simp] theorem getPix_blank (w h x y : Nat) : getPix (blank w h) x y = false := by simp [getPix, blank]

/-- A pixel outside the frame reads black. -/
theorem getPix_outside (F : Frame) (x y : Nat) (h : ¬(x < F.w ∧ y < F.h)) : getPix F x y = false := by
  unfold getPix; simp only [Bool.and_eq_false_imp, decide_eq_true_eq]; intro hx; exact absurd hx h

/-- A write of one pixel sets that pixel and leaves every other one. -/
theorem getPix_setPix (F : Frame) (x y x' y' : Nat) (p : Bool) :
    getPix (setPix F x y p) x' y' = if x' = x ∧ y' = y ∧ x < F.w ∧ y < F.h then p else getPix F x' y' := by
  by_cases hin : x < F.w ∧ y < F.h
  · by_cases hin' : x' < F.w ∧ y' < F.h
    · have hlt := pixel_index_lt hin.1 hin.2
      have hlt' := pixel_index_lt hin'.1 hin'.2
      have hinj := pixel_index_inj (y := y) (y' := y') hin.1 hin'.1
      have hs : setPix F x y p = { F with
          pix := if p then F.pix ||| BitVec.twoPow (F.w * F.h) (y * F.w + x)
            else F.pix &&& ~~~ BitVec.twoPow (F.w * F.h) (y * F.w + x) } := if_pos hin
      rw [hs]
      unfold getPix
      by_cases he : x' = x ∧ y' = y
      · obtain ⟨rfl, rfl⟩ := he
        cases p <;> simp [hlt, hin.1, hin.2]
      · have hne : ¬(y * F.w + x = y' * F.w + x') := fun h => he (by have := hinj.1 h; omega)
        have hn : ¬(x' = x ∧ y' = y ∧ x < F.w ∧ y < F.h) := fun h => he ⟨h.1, h.2.1⟩
        have hne' : ¬y' * F.w + x' = y * F.w + x := fun h => hne h.symm
        rw [if_neg hn]
        cases p <;> simp [hlt', hne', hin'.1, hin'.2]
    · rw [getPix_outside _ x' y' (by simpa using hin'), getPix_outside F x' y' hin', if_neg]
      rintro ⟨rfl, rfl, h⟩; exact hin' h
  · have : setPix F x y p = F := if_neg hin
    rw [this, if_neg]; rintro ⟨-, -, h⟩; exact hin h

/-- A run of pixels: inside the frame, pixel x + j of row y becomes the j-th of the run; all others stay. -/
theorem getPix_setRun (F : Frame) (x y x' y' : Nat) (ps : List Bool) (hin : x + ps.length ≤ F.w) (hy : y < F.h) :
    getPix (setRun F x y ps) x' y' =
      if y' = y ∧ x ≤ x' ∧ x' < x + ps.length then ps.getD (x' - x) false else getPix F x' y' := by
  induction ps generalizing F x with
  | nil => simp only [setRun, List.length_nil, Nat.add_zero]; rw [if_neg (by omega)]
  | cons p ps ih =>
    simp only [List.length_cons] at hin ⊢
    rw [setRun, ih (setPix F x y p) (x + 1) (by simp; omega) (by simpa using hy), getPix_setPix]
    by_cases h1 : y' = y ∧ x + 1 ≤ x' ∧ x' < x + 1 + ps.length
    · rw [if_pos h1, if_pos (by omega), show x' - x = (x' - (x + 1)) + 1 by omega, List.getD_cons_succ]
    · rw [if_neg h1]
      by_cases h2 : x' = x ∧ y' = y
      · obtain ⟨rfl, rfl⟩ := h2
        rw [if_pos (by omega), if_pos (by omega)]; simp
      · rw [if_neg (by omega), if_neg (by omega)]

/-- Two frames of one size with the same pixels are the same data. -/
theorem frame_ext (F G : Frame) (hw : F.w = G.w) (hh : F.h = G.h)
    (hp : ∀ x y, x < F.w → y < F.h → getPix F x y = getPix G x y) : F = G := by
  obtain ⟨w, h, p⟩ := F
  obtain ⟨w', h', q⟩ := G
  simp only at hw hh; subst hw; subst hh
  congr 1
  refine BitVec.eq_of_getLsbD_eq fun i hi => ?_
  have hw : 0 < w := Nat.pos_of_ne_zero fun h0 => by subst h0; simp at hi
  have hx := Nat.mod_lt i hw
  have hy : i / w < h := Nat.div_lt_of_lt_mul hi
  have := hp (i % w) (i / w) hx hy
  simpa [getPix, hx, hy, Nat.div_add_mod'] using this

/-! ### Bits as numbers -/

theorem bitsToNat_lt (ps : List Bool) : bitsToNat ps < 2 ^ ps.length := by
  induction ps with
  | nil => simp [bitsToNat]
  | cons p ps ih =>
    have : p.toNat ≤ 1 := Bool.toNat_le p
    simp only [bitsToNat, List.length_cons, Nat.pow_succ]; omega

/-- Bit j of the sum of p[j] * 2^j is p[j]. -/
theorem testBit_bitsToNat (ps : List Bool) (j : Nat) : (bitsToNat ps).testBit j = ps.getD j false := by
  induction ps generalizing j with
  | nil => simp [bitsToNat]
  | cons p ps ih =>
    cases j with
    | zero => cases p <;> simp [bitsToNat, Nat.testBit_zero]
    | succ j =>
      have hd : (p.toNat + 2 * bitsToNat ps) / 2 = bitsToNat ps := by
        have : p.toNat ≤ 1 := Bool.toNat_le p
        omega
      rw [bitsToNat, Nat.testBit_succ, hd, ih]; simp

theorem getElem?_bitsOf (n v j : Nat) (h : j < n) : (bitsOf n v)[j]? = some (v.testBit j) := by
  simp [bitsOf, h]

theorem getD_bitsOf (n v j : Nat) (h : j < n) : (bitsOf n v).getD j false = v.testBit j := by
  rw [List.getD_eq_getElem?_getD, getElem?_bitsOf n v j h]; rfl

/-- The n low bits of a number below 2^n are that number. -/
theorem bitsToNat_bitsOf (n v : Nat) (h : v < 2 ^ n) : bitsToNat (bitsOf n v) = v := by
  refine Nat.eq_of_testBit_eq fun j => ?_
  rw [testBit_bitsToNat]
  by_cases hj : j < n
  · exact getD_bitsOf n v j hj
  · rw [List.getD_eq_getElem?_getD, List.getElem?_eq_none (by simpa using hj)]
    have := Nat.testBit_lt_two_pow (Nat.lt_of_lt_of_le h (Nat.pow_le_pow_right (by omega) (Nat.le_of_not_lt hj)))
    simpa using this.symm

/-- A read of a run gives back a run of pixels that was written there. -/
theorem getD_getRun (F : Frame) (x y n j : Nat) (h : j < n) : (getRun F x y n).getD j false = getPix F (x + j) y := by
  simp [getRun, List.getD_eq_getElem?_getD, h]

end Sys2Proof.Machine
end

