-- ==== Sys2Proof/Laws/Memory.lean ====
section
/-! SUPPORT. The payload buffer: what a read gives after a write, and that every operation keeps the canonical form. -/

namespace Sys2Proof.Machine

theorem Memory.reset_wf : Memory.wf State.reset.pbuf := by decide

/-! ### Reading one cell -/

@[simp] theorem Memory.read_nil (x : Nat) : Memory.read [] x = none := rfl

@[simp] theorem Memory.read_cons (c : Host.Cell) (m : Memory) (x : Nat) :
    Memory.read (c :: m) x = if c.1 = x then some c.2 else Memory.read m x := rfl

theorem Memory.read_append_none {m n : Memory} {x : Nat} (h : Memory.read m x = none) :
    Memory.read (m ++ n) x = Memory.read n x := by
  induction m with
  | nil => rfl
  | cons c m ih => by_cases hc : c.1 = x <;> simp_all

theorem Memory.read_append_some {m n : Memory} {x : Nat} {b : Byte} (h : Memory.read m x = some b) :
    Memory.read (m ++ n) x = some b := by
  induction m with
  | nil => simp at h
  | cons c m ih => by_cases hc : c.1 = x <;> simp_all

theorem Memory.read_filter_keep (m : Memory) (p : Nat → Bool) (x : Nat) (h : p x = true) :
    Memory.read (m.filter fun c => p c.1) x = Memory.read m x := by
  induction m with
  | nil => rfl
  | cons c m ih =>
    by_cases hc : c.1 = x
    · subst hc; simp [h]
    · by_cases hp : p c.1 = true <;> simp [hp, hc, ih]

theorem Memory.read_filter_drop (m : Memory) (p : Nat → Bool) (x : Nat) (h : p x = false) :
    Memory.read (m.filter fun c => p c.1) x = none := by
  induction m with
  | nil => rfl
  | cons c m ih =>
    by_cases hp : p c.1 = true
    · have hc : c.1 ≠ x := by rintro rfl; simp_all
      simp [hp, hc, ih]
    · simp [hp, ih]

/-! ### The written cells -/

theorem mem_cellsFrom {a : Nat} {B : List Byte} {c : Host.Cell} (h : c ∈ cellsFrom a B) :
    a ≤ c.1 ∧ c.1 < a + B.length := by
  induction B generalizing a with
  | nil => simp [cellsFrom] at h
  | cons b B ih =>
    simp only [cellsFrom, List.mem_cons] at h
    rcases h with rfl | h
    · simp
    · have := ih h; simp only [List.length_cons]; omega

theorem cellsFrom_wf (a : Nat) (B : List Byte) : Memory.wf (cellsFrom a B) := by
  induction B generalizing a with
  | nil => exact List.Pairwise.nil
  | cons b B ih =>
    refine List.Pairwise.cons (fun c hc => ?_) (ih (a + 1))
    have := mem_cellsFrom hc
    simp only; omega

theorem read_cellsFrom (a k : Nat) (B : List Byte) : Memory.read (cellsFrom a B) (a + k) = B[k]? := by
  induction B generalizing a k with
  | nil => simp [cellsFrom]
  | cons b B ih =>
    cases k with
    | zero => simp [cellsFrom]
    | succ k =>
      have he : a + (k + 1) = a + 1 + k := by omega
      simp only [cellsFrom, Memory.read_cons, List.getElem?_cons_succ]
      rw [if_neg (by omega), he]; exact ih (a + 1) k

theorem read_cellsFrom_outside {a x : Nat} {B : List Byte} (h : x < a ∨ a + B.length ≤ x) :
    Memory.read (cellsFrom a B) x = none := by
  by_cases hx : a ≤ x
  · obtain ⟨k, rfl⟩ := Nat.exists_eq_add_of_le hx
    rw [read_cellsFrom]; exact List.getElem?_eq_none (by omega)
  · clear h
    induction B generalizing a with
    | nil => rfl
    | cons b B ih =>
      simp only [cellsFrom, Memory.read_cons]
      rw [if_neg (by omega)]; exact ih (by omega)

/-! ### MemWrite -/

/-- R57: a written cell reads as the byte written. -/
theorem Memory.read_writeBytes_inside (m : Memory) (a k : Nat) (B : List Byte) (h : k < B.length) :
    (m.writeBytes a B).read (a + k) = B[k]? := by
  have h1 := Memory.read_filter_drop m (fun x => decide (x < a)) (a + k) (by simp)
  have hk : Memory.read (cellsFrom a B) (a + k) = some B[k] := by
    rw [read_cellsFrom]; exact List.getElem?_eq_getElem h
  unfold Memory.writeBytes
  rw [List.append_assoc, Memory.read_append_none h1, Memory.read_append_some hk, List.getElem?_eq_getElem h]

/-- R57: a cell outside a .. a + |B| - 1 keeps its contents. -/
theorem Memory.read_writeBytes_outside (m : Memory) (a x : Nat) (B : List Byte)
    (h : x < a ∨ a + B.length ≤ x) : (m.writeBytes a B).read x = m.read x := by
  have hc := read_cellsFrom_outside h
  unfold Memory.writeBytes
  rcases h with h | h
  · have h1 := Memory.read_filter_keep m (fun y => decide (y < a)) x (by simpa using h)
    cases hm : Memory.read m x with
    | some b => rw [List.append_assoc, Memory.read_append_some (h1.trans hm)]
    | none =>
      have h2 := Memory.read_filter_drop m (fun y => decide (a + B.length ≤ y)) x (by simp; omega)
      rw [List.append_assoc, Memory.read_append_none (h1.trans hm), Memory.read_append_none hc, h2]
  · have h1 := Memory.read_filter_drop m (fun y => decide (y < a)) x (by simp; omega)
    have h2 := Memory.read_filter_keep m (fun y => decide (a + B.length ≤ y)) x (by simpa using h)
    rw [List.append_assoc, Memory.read_append_none h1, Memory.read_append_none hc, h2]

/-- Every memory operation keeps the canonical form: the only one that writes is MemWrite. -/
theorem Memory.writeBytes_wf (m : Memory) (a : Nat) (B : List Byte) (h : m.wf) : (m.writeBytes a B).wf := by
  refine List.pairwise_append.2 ⟨List.pairwise_append.2 ⟨h.filter _, cellsFrom_wf a B, ?_⟩, h.filter _, ?_⟩
  · intro c hc d hd
    have := mem_cellsFrom hd
    simp only [List.mem_filter, decide_eq_true_eq] at hc
    omega
  · intro c hc d hd
    simp only [List.mem_filter, decide_eq_true_eq] at hd
    rcases List.mem_append.1 hc with hc | hc
    · simp only [List.mem_filter, decide_eq_true_eq] at hc; omega
    · have := mem_cellsFrom hc; omega

/-- A write inside PBUF lists no cell outside it. -/
theorem Memory.writeBytes_range (m : Memory) (a n : Nat) (B : List Byte) (hm : ∀ c ∈ m, c.1 < n)
    (h : a + B.length ≤ n) : ∀ c ∈ m.writeBytes a B, c.1 < n := by
  intro c hc
  simp only [Memory.writeBytes, List.mem_append, List.mem_filter] at hc
  rcases hc with (hc | hc) | hc
  · exact hm c hc.1
  · have := mem_cellsFrom hc; omega
  · exact hm c hc.1

/-! ### MemRead -/

/-- R56: MemRead gives the bytes of cells a, ..., a + n - 1 in order, exactly when each holds a value. -/
theorem Memory.readBytes_eq_some (m : Memory) (a n : Nat) (B : List Byte) :
    m.readBytes a n = some B ↔ B.length = n ∧ ∀ k, k < n → m.read (a + k) = B[k]? := by
  induction n generalizing a B with
  | zero =>
    constructor
    · rintro h; obtain rfl : [] = B := by simpa [Memory.readBytes] using h
      simp
    · rintro ⟨h, -⟩; simp [Memory.readBytes, List.length_eq_zero_iff.1 h]
  | succ n ih =>
    constructor
    · intro h
      simp only [Memory.readBytes] at h
      split at h
      · rename_i b bs hb hbs
        obtain rfl : b :: bs = B := by simpa using h
        obtain ⟨hl, hk⟩ := (ih (a + 1) bs).1 hbs
        refine ⟨by simp [hl], fun k hkn => ?_⟩
        cases k with
        | zero => simpa using hb
        | succ k =>
          have := hk k (by omega)
          rw [show a + (k + 1) = a + 1 + k by omega]; simpa using this
      · simp at h
    · rintro ⟨hl, hk⟩
      cases B with
      | nil => simp at hl
      | cons b bs =>
        have h0 : m.read a = some b := by simpa using hk 0 (by omega)
        have hr : m.readBytes (a + 1) n = some bs := by
          refine (ih (a + 1) bs).2 ⟨by simpa using hl, fun k hkn => ?_⟩
          have := hk (k + 1) (by omega)
          rw [show a + 1 + k = a + (k + 1) by omega]; simpa using this
        simp [Memory.readBytes, h0, hr]

theorem Memory.readBytes_length {m : Memory} {a n : Nat} {B : List Byte} (h : m.readBytes a n = some B) :
    B.length = n := ((m.readBytes_eq_some a n B).1 h).1

/-- What was written reads back. -/
theorem Memory.readBytes_writeBytes (m : Memory) (a : Nat) (B : List Byte) :
    (m.writeBytes a B).readBytes a B.length = some B :=
  (Memory.readBytes_eq_some _ _ _ _).2 ⟨rfl, fun k hk => m.read_writeBytes_inside a k B hk⟩

/-- A read that succeeds does so exactly when every cell holds a value. -/
theorem Memory.readBytes_isSome (m : Memory) (a n : Nat) :
    (m.readBytes a n).isSome ↔ ∀ k, k < n → (m.read (a + k)).isSome := by
  induction n generalizing a with
  | zero => simp [Memory.readBytes]
  | succ n ih =>
    have h := ih (a + 1)
    constructor
    · intro hs k hk
      simp only [Memory.readBytes] at hs
      split at hs
      · rename_i b bs hb hbs
        cases k with
        | zero => simp [hb]
        | succ k =>
          rw [show a + (k + 1) = a + 1 + k by omega]
          exact h.1 (by simp [hbs]) k (by omega)
      · simp at hs
    · intro hk
      have h0 : (m.read a).isSome := by simpa using hk 0 (by omega)
      have h1 : (m.readBytes (a + 1) n).isSome := h.2 fun k hkn => by
        rw [show a + 1 + k = a + (k + 1) by omega]; exact hk (k + 1) (by omega)
      obtain ⟨b, hb⟩ := Option.isSome_iff_exists.1 h0
      obtain ⟨bs, hbs⟩ := Option.isSome_iff_exists.1 h1
      simp [Memory.readBytes, hb, hbs]

/-- A part of what reads back reads back as that part. -/
theorem Memory.readBytes_sub {m : Memory} {n a k : Nat} {B : List Byte} (h : m.readBytes 0 n = some B)
    (hk : a + k ≤ n) : m.readBytes a k = some ((B.drop a).take k) := by
  obtain ⟨hl, hb⟩ := (Memory.readBytes_eq_some _ _ _ _).1 h
  refine (Memory.readBytes_eq_some _ _ _ _).2 ⟨by simp; omega, fun j hj => ?_⟩
  have := hb (a + j) (by omega)
  simp only [Nat.zero_add] at this
  rw [this, List.getElem?_take_of_lt hj, List.getElem?_drop]

/-! ### The operations over State -/

/-- R56: MemRead answers bytes exactly when the range is inside PBUF and every cell holds a value. -/
theorem State.memRead_eq_ok (s : State) (a n : Nat) (B : List Byte) :
    s.memRead a n = .ok B ↔ a + n ≤ s.params.pbufSize ∧ s.pbuf.readBytes a n = some B := by
  unfold State.memRead
  split
  · split <;> simp_all
  · simp_all

/-- R57: MemWrite answers the state with the bytes written exactly when the range is inside PBUF. -/
theorem State.memWrite_eq_ok (s t : State) (a : Nat) (B : List Byte) :
    s.memWrite a B = .ok t ↔ a + B.length ≤ s.params.pbufSize ∧ t = { s with pbuf := s.pbuf.writeBytes a B } := by
  unfold State.memWrite
  split <;> simp_all [eq_comm]

end Sys2Proof.Machine
end

