-- ==== Sys2Proof/Laws/State.lean ====
section
/-! SUPPORT. Beside State: one lemma per field per update, so that no proof unfolds a record update. -/

namespace Sys2Proof.Machine

/-! ### `State.emit` -/

@[simp] theorem State.emit_params (s : State) (e : Event) : (s.emit e).params = s.params := rfl
@[simp] theorem State.emit_mode (s : State) (e : Event) : (s.emit e).mode = s.mode := rfl
@[simp] theorem State.emit_phase (s : State) (e : Event) : (s.emit e).phase = s.phase := rfl
@[simp] theorem State.emit_errcode (s : State) (e : Event) : (s.emit e).errcode = s.errcode := rfl
@[simp] theorem State.emit_lastcmd (s : State) (e : Event) : (s.emit e).lastcmd = s.lastcmd := rfl
@[simp] theorem State.emit_width (s : State) (e : Event) : (s.emit e).width = s.width := rfl
@[simp] theorem State.emit_height (s : State) (e : Event) : (s.emit e).height = s.height := rfl
@[simp] theorem State.emit_rate (s : State) (e : Event) : (s.emit e).rate = s.rate := rfl
@[simp] theorem State.emit_length (s : State) (e : Event) : (s.emit e).length = s.length := rfl
@[simp] theorem State.emit_bpf (s : State) (e : Event) : (s.emit e).bpf = s.bpf := rfl
@[simp] theorem State.emit_fcount (s : State) (e : Event) : (s.emit e).fcount = s.fcount := rfl
@[simp] theorem State.emit_fidx (s : State) (e : Event) : (s.emit e).fidx = s.fidx := rfl
@[simp] theorem State.emit_cursor (s : State) (e : Event) : (s.emit e).cursor = s.cursor := rfl
@[simp] theorem State.emit_pbuf (s : State) (e : Event) : (s.emit e).pbuf = s.pbuf := rfl
@[simp] theorem State.emit_fb (s : State) (e : Event) : (s.emit e).fb = s.fb := rfl
@[simp] theorem State.emit_hist (s : State) (e : Event) : (s.emit e).hist = s.hist ++ [e] := rfl
@[simp] theorem State.emit_sched (s : State) (e : Event) : (s.emit e).sched = s.sched := rfl
@[simp] theorem State.emit_vwIn (s : State) (e : Event) : (s.emit e).vwIn = s.vwIn := rfl
@[simp] theorem State.emit_vrIn (s : State) (e : Event) : (s.emit e).vrIn = s.vrIn := rfl
@[simp] theorem State.emit_srcIn (s : State) (e : Event) : (s.emit e).srcIn = s.srcIn := rfl
@[simp] theorem State.emit_snkIn (s : State) (e : Event) : (s.emit e).snkIn = s.snkIn := rfl
@[simp] theorem State.emit_draws (s : State) (e : Event) : (s.emit e).draws = s.draws := rfl
@[simp] theorem State.emit_reads (s : State) (e : Event) : (s.emit e).reads = s.reads := rfl

/-! ### `State.fillFb` -/

@[simp] theorem State.fillFb_params (s : State) (F : Frame) : (s.fillFb F).params = s.params := rfl
@[simp] theorem State.fillFb_mode (s : State) (F : Frame) : (s.fillFb F).mode = s.mode := rfl
@[simp] theorem State.fillFb_phase (s : State) (F : Frame) : (s.fillFb F).phase = s.phase := rfl
@[simp] theorem State.fillFb_errcode (s : State) (F : Frame) : (s.fillFb F).errcode = s.errcode := rfl
@[simp] theorem State.fillFb_lastcmd (s : State) (F : Frame) : (s.fillFb F).lastcmd = s.lastcmd := rfl
@[simp] theorem State.fillFb_width (s : State) (F : Frame) : (s.fillFb F).width = s.width := rfl
@[simp] theorem State.fillFb_height (s : State) (F : Frame) : (s.fillFb F).height = s.height := rfl
@[simp] theorem State.fillFb_rate (s : State) (F : Frame) : (s.fillFb F).rate = s.rate := rfl
@[simp] theorem State.fillFb_length (s : State) (F : Frame) : (s.fillFb F).length = s.length := rfl
@[simp] theorem State.fillFb_bpf (s : State) (F : Frame) : (s.fillFb F).bpf = s.bpf := rfl
@[simp] theorem State.fillFb_fcount (s : State) (F : Frame) : (s.fillFb F).fcount = s.fcount := rfl
@[simp] theorem State.fillFb_fidx (s : State) (F : Frame) : (s.fillFb F).fidx = s.fidx := rfl
@[simp] theorem State.fillFb_cursor (s : State) (F : Frame) : (s.fillFb F).cursor = s.cursor := rfl
@[simp] theorem State.fillFb_pbuf (s : State) (F : Frame) : (s.fillFb F).pbuf = s.pbuf := rfl
@[simp] theorem State.fillFb_fb (s : State) (F : Frame) : (s.fillFb F).fb = some F := rfl
@[simp] theorem State.fillFb_hist (s : State) (F : Frame) : (s.fillFb F).hist = s.hist := rfl
@[simp] theorem State.fillFb_sched (s : State) (F : Frame) : (s.fillFb F).sched = s.sched := rfl
@[simp] theorem State.fillFb_vwIn (s : State) (F : Frame) : (s.fillFb F).vwIn = s.vwIn := rfl
@[simp] theorem State.fillFb_vrIn (s : State) (F : Frame) : (s.fillFb F).vrIn = s.vrIn := rfl
@[simp] theorem State.fillFb_srcIn (s : State) (F : Frame) : (s.fillFb F).srcIn = s.srcIn := rfl
@[simp] theorem State.fillFb_snkIn (s : State) (F : Frame) : (s.fillFb F).snkIn = s.snkIn := rfl
@[simp] theorem State.fillFb_draws (s : State) (F : Frame) : (s.fillFb F).draws = s.draws := rfl
@[simp] theorem State.fillFb_reads (s : State) (F : Frame) : (s.fillFb F).reads = s.reads := rfl

/-! ### `State.dropFb` -/

@[simp] theorem State.dropFb_params (s : State) : (s.dropFb).params = s.params := rfl
@[simp] theorem State.dropFb_mode (s : State) : (s.dropFb).mode = s.mode := rfl
@[simp] theorem State.dropFb_phase (s : State) : (s.dropFb).phase = s.phase := rfl
@[simp] theorem State.dropFb_errcode (s : State) : (s.dropFb).errcode = s.errcode := rfl
@[simp] theorem State.dropFb_lastcmd (s : State) : (s.dropFb).lastcmd = s.lastcmd := rfl
@[simp] theorem State.dropFb_width (s : State) : (s.dropFb).width = s.width := rfl
@[simp] theorem State.dropFb_height (s : State) : (s.dropFb).height = s.height := rfl
@[simp] theorem State.dropFb_rate (s : State) : (s.dropFb).rate = s.rate := rfl
@[simp] theorem State.dropFb_length (s : State) : (s.dropFb).length = s.length := rfl
@[simp] theorem State.dropFb_bpf (s : State) : (s.dropFb).bpf = s.bpf := rfl
@[simp] theorem State.dropFb_fcount (s : State) : (s.dropFb).fcount = s.fcount := rfl
@[simp] theorem State.dropFb_fidx (s : State) : (s.dropFb).fidx = s.fidx := rfl
@[simp] theorem State.dropFb_cursor (s : State) : (s.dropFb).cursor = s.cursor := rfl
@[simp] theorem State.dropFb_pbuf (s : State) : (s.dropFb).pbuf = s.pbuf := rfl
@[simp] theorem State.dropFb_fb (s : State) : (s.dropFb).fb = none := rfl
@[simp] theorem State.dropFb_hist (s : State) : (s.dropFb).hist = s.hist := rfl
@[simp] theorem State.dropFb_sched (s : State) : (s.dropFb).sched = s.sched := rfl
@[simp] theorem State.dropFb_vwIn (s : State) : (s.dropFb).vwIn = s.vwIn := rfl
@[simp] theorem State.dropFb_vrIn (s : State) : (s.dropFb).vrIn = s.vrIn := rfl
@[simp] theorem State.dropFb_srcIn (s : State) : (s.dropFb).srcIn = s.srcIn := rfl
@[simp] theorem State.dropFb_snkIn (s : State) : (s.dropFb).snkIn = s.snkIn := rfl
@[simp] theorem State.dropFb_draws (s : State) : (s.dropFb).draws = s.draws := rfl
@[simp] theorem State.dropFb_reads (s : State) : (s.dropFb).reads = s.reads := rfl

/-! ### `State.raise` -/

@[simp] theorem State.raise_params (s : State) (c : BitVec 8) : (s.raise c).params = s.params := rfl
@[simp] theorem State.raise_mode (s : State) (c : BitVec 8) : (s.raise c).mode = Mode.error := rfl
@[simp] theorem State.raise_phase (s : State) (c : BitVec 8) : (s.raise c).phase = 0 := rfl
@[simp] theorem State.raise_errcode (s : State) (c : BitVec 8) : (s.raise c).errcode = c := rfl
@[simp] theorem State.raise_lastcmd (s : State) (c : BitVec 8) : (s.raise c).lastcmd = s.lastcmd := rfl
@[simp] theorem State.raise_width (s : State) (c : BitVec 8) : (s.raise c).width = s.width := rfl
@[simp] theorem State.raise_height (s : State) (c : BitVec 8) : (s.raise c).height = s.height := rfl
@[simp] theorem State.raise_rate (s : State) (c : BitVec 8) : (s.raise c).rate = s.rate := rfl
@[simp] theorem State.raise_length (s : State) (c : BitVec 8) : (s.raise c).length = s.length := rfl
@[simp] theorem State.raise_bpf (s : State) (c : BitVec 8) : (s.raise c).bpf = s.bpf := rfl
@[simp] theorem State.raise_fcount (s : State) (c : BitVec 8) : (s.raise c).fcount = s.fcount := rfl
@[simp] theorem State.raise_fidx (s : State) (c : BitVec 8) : (s.raise c).fidx = s.fidx := rfl
@[simp] theorem State.raise_cursor (s : State) (c : BitVec 8) : (s.raise c).cursor = s.cursor := rfl
@[simp] theorem State.raise_pbuf (s : State) (c : BitVec 8) : (s.raise c).pbuf = s.pbuf := rfl
@[simp] theorem State.raise_fb (s : State) (c : BitVec 8) : (s.raise c).fb = s.fb := rfl
@[simp] theorem State.raise_hist (s : State) (c : BitVec 8) : (s.raise c).hist = s.hist := rfl
@[simp] theorem State.raise_sched (s : State) (c : BitVec 8) : (s.raise c).sched = s.sched := rfl
@[simp] theorem State.raise_vwIn (s : State) (c : BitVec 8) : (s.raise c).vwIn = s.vwIn := rfl
@[simp] theorem State.raise_vrIn (s : State) (c : BitVec 8) : (s.raise c).vrIn = s.vrIn := rfl
@[simp] theorem State.raise_srcIn (s : State) (c : BitVec 8) : (s.raise c).srcIn = s.srcIn := rfl
@[simp] theorem State.raise_snkIn (s : State) (c : BitVec 8) : (s.raise c).snkIn = s.snkIn := rfl
@[simp] theorem State.raise_draws (s : State) (c : BitVec 8) : (s.raise c).draws = s.draws := rfl
@[simp] theorem State.raise_reads (s : State) (c : BitVec 8) : (s.raise c).reads = s.reads := rfl

/-! ### `State.failWriter` -/

@[simp] theorem State.failWriter_params (s : State) : (s.failWriter).params = s.params := rfl
@[simp] theorem State.failWriter_mode (s : State) : (s.failWriter).mode = Mode.error := rfl
@[simp] theorem State.failWriter_phase (s : State) : (s.failWriter).phase = 0 := rfl
@[simp] theorem State.failWriter_errcode (s : State) : (s.failWriter).errcode = ErrCode.containerWrite := rfl
@[simp] theorem State.failWriter_lastcmd (s : State) : (s.failWriter).lastcmd = s.lastcmd := rfl
@[simp] theorem State.failWriter_width (s : State) : (s.failWriter).width = s.width := rfl
@[simp] theorem State.failWriter_height (s : State) : (s.failWriter).height = s.height := rfl
@[simp] theorem State.failWriter_rate (s : State) : (s.failWriter).rate = s.rate := rfl
@[simp] theorem State.failWriter_length (s : State) : (s.failWriter).length = s.length := rfl
@[simp] theorem State.failWriter_bpf (s : State) : (s.failWriter).bpf = s.bpf := rfl
@[simp] theorem State.failWriter_fcount (s : State) : (s.failWriter).fcount = s.fcount := rfl
@[simp] theorem State.failWriter_fidx (s : State) : (s.failWriter).fidx = s.fidx := rfl
@[simp] theorem State.failWriter_cursor (s : State) : (s.failWriter).cursor = s.cursor := rfl
@[simp] theorem State.failWriter_pbuf (s : State) : (s.failWriter).pbuf = s.pbuf := rfl
@[simp] theorem State.failWriter_fb (s : State) : (s.failWriter).fb = s.fb := rfl
@[simp] theorem State.failWriter_hist (s : State) : (s.failWriter).hist = s.hist ++ [.vwDiscard] := rfl
@[simp] theorem State.failWriter_sched (s : State) : (s.failWriter).sched = s.sched := rfl
@[simp] theorem State.failWriter_vwIn (s : State) : (s.failWriter).vwIn = s.vwIn := rfl
@[simp] theorem State.failWriter_vrIn (s : State) : (s.failWriter).vrIn = s.vrIn := rfl
@[simp] theorem State.failWriter_srcIn (s : State) : (s.failWriter).srcIn = s.srcIn := rfl
@[simp] theorem State.failWriter_snkIn (s : State) : (s.failWriter).snkIn = s.snkIn := rfl
@[simp] theorem State.failWriter_draws (s : State) : (s.failWriter).draws = s.draws := rfl
@[simp] theorem State.failWriter_reads (s : State) : (s.failWriter).reads = s.reads := rfl

/-! ### `State.failReader` -/

@[simp] theorem State.failReader_params (s : State) (c : BitVec 8) : (s.failReader c).params = s.params := rfl
@[simp] theorem State.failReader_mode (s : State) (c : BitVec 8) : (s.failReader c).mode = Mode.error := rfl
@[simp] theorem State.failReader_phase (s : State) (c : BitVec 8) : (s.failReader c).phase = 0 := rfl
@[simp] theorem State.failReader_errcode (s : State) (c : BitVec 8) : (s.failReader c).errcode = c := rfl
@[simp] theorem State.failReader_lastcmd (s : State) (c : BitVec 8) : (s.failReader c).lastcmd = s.lastcmd := rfl
@[simp] theorem State.failReader_width (s : State) (c : BitVec 8) : (s.failReader c).width = s.width := rfl
@[simp] theorem State.failReader_height (s : State) (c : BitVec 8) : (s.failReader c).height = s.height := rfl
@[simp] theorem State.failReader_rate (s : State) (c : BitVec 8) : (s.failReader c).rate = s.rate := rfl
@[simp] theorem State.failReader_length (s : State) (c : BitVec 8) : (s.failReader c).length = s.length := rfl
@[simp] theorem State.failReader_bpf (s : State) (c : BitVec 8) : (s.failReader c).bpf = s.bpf := rfl
@[simp] theorem State.failReader_fcount (s : State) (c : BitVec 8) : (s.failReader c).fcount = s.fcount := rfl
@[simp] theorem State.failReader_fidx (s : State) (c : BitVec 8) : (s.failReader c).fidx = s.fidx := rfl
@[simp] theorem State.failReader_cursor (s : State) (c : BitVec 8) : (s.failReader c).cursor = s.cursor := rfl
@[simp] theorem State.failReader_pbuf (s : State) (c : BitVec 8) : (s.failReader c).pbuf = s.pbuf := rfl
@[simp] theorem State.failReader_fb (s : State) (c : BitVec 8) : (s.failReader c).fb = s.fb := rfl
@[simp] theorem State.failReader_hist (s : State) (c : BitVec 8) : (s.failReader c).hist = s.hist ++ [.vrRelease] := rfl
@[simp] theorem State.failReader_sched (s : State) (c : BitVec 8) : (s.failReader c).sched = s.sched := rfl
@[simp] theorem State.failReader_vwIn (s : State) (c : BitVec 8) : (s.failReader c).vwIn = s.vwIn := rfl
@[simp] theorem State.failReader_vrIn (s : State) (c : BitVec 8) : (s.failReader c).vrIn = s.vrIn := rfl
@[simp] theorem State.failReader_srcIn (s : State) (c : BitVec 8) : (s.failReader c).srcIn = s.srcIn := rfl
@[simp] theorem State.failReader_snkIn (s : State) (c : BitVec 8) : (s.failReader c).snkIn = s.snkIn := rfl
@[simp] theorem State.failReader_draws (s : State) (c : BitVec 8) : (s.failReader c).draws = s.draws := rfl
@[simp] theorem State.failReader_reads (s : State) (c : BitVec 8) : (s.failReader c).reads = s.reads := rfl

/-! ### `State.startClear` -/

@[simp] theorem State.startClear_params (s : State) : (s.startClear).params = s.params := rfl
@[simp] theorem State.startClear_mode (s : State) : (s.startClear).mode = s.mode := rfl
@[simp] theorem State.startClear_phase (s : State) : (s.startClear).phase = s.phase := rfl
@[simp] theorem State.startClear_errcode (s : State) : (s.startClear).errcode = ErrCode.none := rfl
@[simp] theorem State.startClear_lastcmd (s : State) : (s.startClear).lastcmd = LastCmd.accepted := rfl
@[simp] theorem State.startClear_width (s : State) : (s.startClear).width = s.width := rfl
@[simp] theorem State.startClear_height (s : State) : (s.startClear).height = s.height := rfl
@[simp] theorem State.startClear_rate (s : State) : (s.startClear).rate = s.rate := rfl
@[simp] theorem State.startClear_length (s : State) : (s.startClear).length = 0 := rfl
@[simp] theorem State.startClear_bpf (s : State) : (s.startClear).bpf = 0 := rfl
@[simp] theorem State.startClear_fcount (s : State) : (s.startClear).fcount = 0 := rfl
@[simp] theorem State.startClear_fidx (s : State) : (s.startClear).fidx = 0 := rfl
@[simp] theorem State.startClear_cursor (s : State) : (s.startClear).cursor = 0 := rfl
@[simp] theorem State.startClear_pbuf (s : State) : (s.startClear).pbuf = s.pbuf := rfl
@[simp] theorem State.startClear_fb (s : State) : (s.startClear).fb = s.fb := rfl
@[simp] theorem State.startClear_hist (s : State) : (s.startClear).hist = s.hist := rfl
@[simp] theorem State.startClear_sched (s : State) : (s.startClear).sched = s.sched := rfl
@[simp] theorem State.startClear_vwIn (s : State) : (s.startClear).vwIn = s.vwIn := rfl
@[simp] theorem State.startClear_vrIn (s : State) : (s.startClear).vrIn = s.vrIn := rfl
@[simp] theorem State.startClear_srcIn (s : State) : (s.startClear).srcIn = s.srcIn := rfl
@[simp] theorem State.startClear_snkIn (s : State) : (s.startClear).snkIn = s.snkIn := rfl
@[simp] theorem State.startClear_draws (s : State) : (s.startClear).draws = s.draws := rfl
@[simp] theorem State.startClear_reads (s : State) : (s.startClear).reads = s.reads := rfl

/-! ### `State.vwTaken` -/

@[simp] theorem State.vwTaken_params (s : State) : (s.vwTaken).params = s.params := by unfold State.vwTaken; split <;> rfl
@[simp] theorem State.vwTaken_mode (s : State) : (s.vwTaken).mode = s.mode := by unfold State.vwTaken; split <;> rfl
@[simp] theorem State.vwTaken_phase (s : State) : (s.vwTaken).phase = s.phase := by unfold State.vwTaken; split <;> rfl
@[simp] theorem State.vwTaken_errcode (s : State) : (s.vwTaken).errcode = s.errcode := by unfold State.vwTaken; split <;> rfl
@[simp] theorem State.vwTaken_lastcmd (s : State) : (s.vwTaken).lastcmd = s.lastcmd := by unfold State.vwTaken; split <;> rfl
@[simp] theorem State.vwTaken_width (s : State) : (s.vwTaken).width = s.width := by unfold State.vwTaken; split <;> rfl
@[simp] theorem State.vwTaken_height (s : State) : (s.vwTaken).height = s.height := by unfold State.vwTaken; split <;> rfl
@[simp] theorem State.vwTaken_rate (s : State) : (s.vwTaken).rate = s.rate := by unfold State.vwTaken; split <;> rfl
@[simp] theorem State.vwTaken_length (s : State) : (s.vwTaken).length = s.length := by unfold State.vwTaken; split <;> rfl
@[simp] theorem State.vwTaken_bpf (s : State) : (s.vwTaken).bpf = s.bpf := by unfold State.vwTaken; split <;> rfl
@[simp] theorem State.vwTaken_fcount (s : State) : (s.vwTaken).fcount = s.fcount := by unfold State.vwTaken; split <;> rfl
@[simp] theorem State.vwTaken_fidx (s : State) : (s.vwTaken).fidx = s.fidx := by unfold State.vwTaken; split <;> rfl
@[simp] theorem State.vwTaken_cursor (s : State) : (s.vwTaken).cursor = s.cursor := by unfold State.vwTaken; split <;> rfl
@[simp] theorem State.vwTaken_pbuf (s : State) : (s.vwTaken).pbuf = s.pbuf := by unfold State.vwTaken; split <;> rfl
@[simp] theorem State.vwTaken_fb (s : State) : (s.vwTaken).fb = s.fb := by unfold State.vwTaken; split <;> rfl
@[simp] theorem State.vwTaken_hist (s : State) : (s.vwTaken).hist = s.hist := by unfold State.vwTaken; split <;> rfl
@[simp] theorem State.vwTaken_sched (s : State) : (s.vwTaken).sched = s.sched := by unfold State.vwTaken; split <;> rfl
@[simp] theorem State.vwTaken_vrIn (s : State) : (s.vwTaken).vrIn = s.vrIn := by unfold State.vwTaken; split <;> rfl
@[simp] theorem State.vwTaken_srcIn (s : State) : (s.vwTaken).srcIn = s.srcIn := by unfold State.vwTaken; split <;> rfl
@[simp] theorem State.vwTaken_snkIn (s : State) : (s.vwTaken).snkIn = s.snkIn := by unfold State.vwTaken; split <;> rfl
@[simp] theorem State.vwTaken_reads (s : State) : (s.vwTaken).reads = s.reads := by unfold State.vwTaken; split <;> rfl

/-! ### `State.vrTaken` -/

@[simp] theorem State.vrTaken_params (s : State) : (s.vrTaken).params = s.params := by unfold State.vrTaken; split <;> rfl
@[simp] theorem State.vrTaken_mode (s : State) : (s.vrTaken).mode = s.mode := by unfold State.vrTaken; split <;> rfl
@[simp] theorem State.vrTaken_phase (s : State) : (s.vrTaken).phase = s.phase := by unfold State.vrTaken; split <;> rfl
@[simp] theorem State.vrTaken_errcode (s : State) : (s.vrTaken).errcode = s.errcode := by unfold State.vrTaken; split <;> rfl
@[simp] theorem State.vrTaken_lastcmd (s : State) : (s.vrTaken).lastcmd = s.lastcmd := by unfold State.vrTaken; split <;> rfl
@[simp] theorem State.vrTaken_width (s : State) : (s.vrTaken).width = s.width := by unfold State.vrTaken; split <;> rfl
@[simp] theorem State.vrTaken_height (s : State) : (s.vrTaken).height = s.height := by unfold State.vrTaken; split <;> rfl
@[simp] theorem State.vrTaken_rate (s : State) : (s.vrTaken).rate = s.rate := by unfold State.vrTaken; split <;> rfl
@[simp] theorem State.vrTaken_length (s : State) : (s.vrTaken).length = s.length := by unfold State.vrTaken; split <;> rfl
@[simp] theorem State.vrTaken_bpf (s : State) : (s.vrTaken).bpf = s.bpf := by unfold State.vrTaken; split <;> rfl
@[simp] theorem State.vrTaken_fcount (s : State) : (s.vrTaken).fcount = s.fcount := by unfold State.vrTaken; split <;> rfl
@[simp] theorem State.vrTaken_fidx (s : State) : (s.vrTaken).fidx = s.fidx := by unfold State.vrTaken; split <;> rfl
@[simp] theorem State.vrTaken_cursor (s : State) : (s.vrTaken).cursor = s.cursor := by unfold State.vrTaken; split <;> rfl
@[simp] theorem State.vrTaken_pbuf (s : State) : (s.vrTaken).pbuf = s.pbuf := by unfold State.vrTaken; split <;> rfl
@[simp] theorem State.vrTaken_fb (s : State) : (s.vrTaken).fb = s.fb := by unfold State.vrTaken; split <;> rfl
@[simp] theorem State.vrTaken_hist (s : State) : (s.vrTaken).hist = s.hist := by unfold State.vrTaken; split <;> rfl
@[simp] theorem State.vrTaken_sched (s : State) : (s.vrTaken).sched = s.sched := by unfold State.vrTaken; split <;> rfl
@[simp] theorem State.vrTaken_vwIn (s : State) : (s.vrTaken).vwIn = s.vwIn := by unfold State.vrTaken; split <;> rfl
@[simp] theorem State.vrTaken_srcIn (s : State) : (s.vrTaken).srcIn = s.srcIn := by unfold State.vrTaken; split <;> rfl
@[simp] theorem State.vrTaken_snkIn (s : State) : (s.vrTaken).snkIn = s.snkIn := by unfold State.vrTaken; split <;> rfl
@[simp] theorem State.vrTaken_reads (s : State) : (s.vrTaken).reads = s.reads := by unfold State.vrTaken; split <;> rfl

/-! ### `State.srcTaken` -/

@[simp] theorem State.srcTaken_params (s : State) : (s.srcTaken).params = s.params := by unfold State.srcTaken; split <;> rfl
@[simp] theorem State.srcTaken_mode (s : State) : (s.srcTaken).mode = s.mode := by unfold State.srcTaken; split <;> rfl
@[simp] theorem State.srcTaken_phase (s : State) : (s.srcTaken).phase = s.phase := by unfold State.srcTaken; split <;> rfl
@[simp] theorem State.srcTaken_errcode (s : State) : (s.srcTaken).errcode = s.errcode := by unfold State.srcTaken; split <;> rfl
@[simp] theorem State.srcTaken_lastcmd (s : State) : (s.srcTaken).lastcmd = s.lastcmd := by unfold State.srcTaken; split <;> rfl
@[simp] theorem State.srcTaken_width (s : State) : (s.srcTaken).width = s.width := by unfold State.srcTaken; split <;> rfl
@[simp] theorem State.srcTaken_height (s : State) : (s.srcTaken).height = s.height := by unfold State.srcTaken; split <;> rfl
@[simp] theorem State.srcTaken_rate (s : State) : (s.srcTaken).rate = s.rate := by unfold State.srcTaken; split <;> rfl
@[simp] theorem State.srcTaken_length (s : State) : (s.srcTaken).length = s.length := by unfold State.srcTaken; split <;> rfl
@[simp] theorem State.srcTaken_bpf (s : State) : (s.srcTaken).bpf = s.bpf := by unfold State.srcTaken; split <;> rfl
@[simp] theorem State.srcTaken_fcount (s : State) : (s.srcTaken).fcount = s.fcount := by unfold State.srcTaken; split <;> rfl
@[simp] theorem State.srcTaken_fidx (s : State) : (s.srcTaken).fidx = s.fidx := by unfold State.srcTaken; split <;> rfl
@[simp] theorem State.srcTaken_cursor (s : State) : (s.srcTaken).cursor = s.cursor := by unfold State.srcTaken; split <;> rfl
@[simp] theorem State.srcTaken_pbuf (s : State) : (s.srcTaken).pbuf = s.pbuf := by unfold State.srcTaken; split <;> rfl
@[simp] theorem State.srcTaken_fb (s : State) : (s.srcTaken).fb = s.fb := by unfold State.srcTaken; split <;> rfl
@[simp] theorem State.srcTaken_hist (s : State) : (s.srcTaken).hist = s.hist := by unfold State.srcTaken; split <;> rfl
@[simp] theorem State.srcTaken_sched (s : State) : (s.srcTaken).sched = s.sched := by unfold State.srcTaken; split <;> rfl
@[simp] theorem State.srcTaken_vwIn (s : State) : (s.srcTaken).vwIn = s.vwIn := by unfold State.srcTaken; split <;> rfl
@[simp] theorem State.srcTaken_vrIn (s : State) : (s.srcTaken).vrIn = s.vrIn := by unfold State.srcTaken; split <;> rfl
@[simp] theorem State.srcTaken_snkIn (s : State) : (s.srcTaken).snkIn = s.snkIn := by unfold State.srcTaken; split <;> rfl
@[simp] theorem State.srcTaken_reads (s : State) : (s.srcTaken).reads = s.reads := by unfold State.srcTaken; split <;> rfl

/-! ### `State.snkTaken` -/

@[simp] theorem State.snkTaken_params (s : State) : (s.snkTaken).params = s.params := by unfold State.snkTaken; split <;> rfl
@[simp] theorem State.snkTaken_mode (s : State) : (s.snkTaken).mode = s.mode := by unfold State.snkTaken; split <;> rfl
@[simp] theorem State.snkTaken_phase (s : State) : (s.snkTaken).phase = s.phase := by unfold State.snkTaken; split <;> rfl
@[simp] theorem State.snkTaken_errcode (s : State) : (s.snkTaken).errcode = s.errcode := by unfold State.snkTaken; split <;> rfl
@[simp] theorem State.snkTaken_lastcmd (s : State) : (s.snkTaken).lastcmd = s.lastcmd := by unfold State.snkTaken; split <;> rfl
@[simp] theorem State.snkTaken_width (s : State) : (s.snkTaken).width = s.width := by unfold State.snkTaken; split <;> rfl
@[simp] theorem State.snkTaken_height (s : State) : (s.snkTaken).height = s.height := by unfold State.snkTaken; split <;> rfl
@[simp] theorem State.snkTaken_rate (s : State) : (s.snkTaken).rate = s.rate := by unfold State.snkTaken; split <;> rfl
@[simp] theorem State.snkTaken_length (s : State) : (s.snkTaken).length = s.length := by unfold State.snkTaken; split <;> rfl
@[simp] theorem State.snkTaken_bpf (s : State) : (s.snkTaken).bpf = s.bpf := by unfold State.snkTaken; split <;> rfl
@[simp] theorem State.snkTaken_fcount (s : State) : (s.snkTaken).fcount = s.fcount := by unfold State.snkTaken; split <;> rfl
@[simp] theorem State.snkTaken_fidx (s : State) : (s.snkTaken).fidx = s.fidx := by unfold State.snkTaken; split <;> rfl
@[simp] theorem State.snkTaken_cursor (s : State) : (s.snkTaken).cursor = s.cursor := by unfold State.snkTaken; split <;> rfl
@[simp] theorem State.snkTaken_pbuf (s : State) : (s.snkTaken).pbuf = s.pbuf := by unfold State.snkTaken; split <;> rfl
@[simp] theorem State.snkTaken_fb (s : State) : (s.snkTaken).fb = s.fb := by unfold State.snkTaken; split <;> rfl
@[simp] theorem State.snkTaken_hist (s : State) : (s.snkTaken).hist = s.hist := by unfold State.snkTaken; split <;> rfl
@[simp] theorem State.snkTaken_sched (s : State) : (s.snkTaken).sched = s.sched := by unfold State.snkTaken; split <;> rfl
@[simp] theorem State.snkTaken_vwIn (s : State) : (s.snkTaken).vwIn = s.vwIn := by unfold State.snkTaken; split <;> rfl
@[simp] theorem State.snkTaken_vrIn (s : State) : (s.snkTaken).vrIn = s.vrIn := by unfold State.snkTaken; split <;> rfl
@[simp] theorem State.snkTaken_srcIn (s : State) : (s.snkTaken).srcIn = s.srcIn := by unfold State.snkTaken; split <;> rfl
@[simp] theorem State.snkTaken_reads (s : State) : (s.snkTaken).reads = s.reads := by unfold State.snkTaken; split <;> rfl

/-! ### The answers of VW: a laid-down answer is drawn and used up; past them it is a free value -/

theorem State.vwAnswer_cons (s : State) (a : Ack) (rest : List Ack) (h : s.vwIn = a :: rest) :
    s.vwAnswer = a := by simp [State.vwAnswer, h]

theorem State.vwTaken_cons (s : State) (a : Ack) (rest : List Ack) (h : s.vwIn = a :: rest) :
    s.vwTaken = { s with vwIn := rest } := by simp [State.vwTaken, h]

@[simp] theorem State.vwTaken_vwIn (s : State) : s.vwTaken.vwIn = s.vwIn.tail := by
  unfold State.vwTaken; split <;> simp_all

theorem State.vwTaken_emit (s : State) (e : Event) : (s.emit e).vwTaken = s.vwTaken.emit e := by
  unfold State.vwTaken State.emit; dsimp only; split <;> simp_all

theorem State.vwAnswer_emit (s : State) (e : Event) : (s.emit e).vwAnswer = s.vwAnswer := rfl

theorem State.vwAnswer_nil (s : State) (h : s.vwIn = []) :
    s.vwAnswer = Config.freeVw s.draws := by simp [State.vwAnswer, h]

theorem State.vwTaken_nil (s : State) (h : s.vwIn = []) :
    s.vwTaken = { s with draws := s.draws + 1 } := by simp [State.vwTaken, h]

/-! ### The answers of VR: a laid-down answer is drawn and used up; past them it is a free value -/

theorem State.vrAnswer_cons (s : State) (a : VrAnswer) (rest : List VrAnswer) (h : s.vrIn = a :: rest) :
    s.vrAnswer = a := by simp [State.vrAnswer, h]

theorem State.vrTaken_cons (s : State) (a : VrAnswer) (rest : List VrAnswer) (h : s.vrIn = a :: rest) :
    s.vrTaken = { s with vrIn := rest } := by simp [State.vrTaken, h]

@[simp] theorem State.vrTaken_vrIn (s : State) : s.vrTaken.vrIn = s.vrIn.tail := by
  unfold State.vrTaken; split <;> simp_all

theorem State.vrTaken_emit (s : State) (e : Event) : (s.emit e).vrTaken = s.vrTaken.emit e := by
  unfold State.vrTaken State.emit; dsimp only; split <;> simp_all

theorem State.vrAnswer_emit (s : State) (e : Event) : (s.emit e).vrAnswer = s.vrAnswer := rfl

theorem State.vrAnswer_nil (s : State) (h : s.vrIn = []) :
    s.vrAnswer = Config.freeVr s.draws := by simp [State.vrAnswer, h]

theorem State.vrTaken_nil (s : State) (h : s.vrIn = []) :
    s.vrTaken = { s with draws := s.draws + 1 } := by simp [State.vrTaken, h]

/-! ### The answers of SRC: a laid-down answer is drawn and used up; past them it is a free value -/

theorem State.srcAnswer_cons (s : State) (a : SrcAnswer) (rest : List SrcAnswer) (h : s.srcIn = a :: rest) :
    s.srcAnswer = a := by simp [State.srcAnswer, h]

theorem State.srcTaken_cons (s : State) (a : SrcAnswer) (rest : List SrcAnswer) (h : s.srcIn = a :: rest) :
    s.srcTaken = { s with srcIn := rest } := by simp [State.srcTaken, h]

@[simp] theorem State.srcTaken_srcIn (s : State) : s.srcTaken.srcIn = s.srcIn.tail := by
  unfold State.srcTaken; split <;> simp_all

theorem State.srcTaken_emit (s : State) (e : Event) : (s.emit e).srcTaken = s.srcTaken.emit e := by
  unfold State.srcTaken State.emit; dsimp only; split <;> simp_all

theorem State.srcAnswer_emit (s : State) (e : Event) : (s.emit e).srcAnswer = s.srcAnswer := rfl

theorem State.srcAnswer_nil (s : State) (h : s.srcIn = []) :
    s.srcAnswer = Config.freeSrc s.draws := by simp [State.srcAnswer, h]

theorem State.srcTaken_nil (s : State) (h : s.srcIn = []) :
    s.srcTaken = { s with draws := s.draws + 1 } := by simp [State.srcTaken, h]

/-! ### The answers of SNK: a laid-down answer is drawn and used up; past them it is a free value -/

theorem State.snkAnswer_cons (s : State) (a : Ack) (rest : List Ack) (h : s.snkIn = a :: rest) :
    s.snkAnswer = a := by simp [State.snkAnswer, h]

theorem State.snkTaken_cons (s : State) (a : Ack) (rest : List Ack) (h : s.snkIn = a :: rest) :
    s.snkTaken = { s with snkIn := rest } := by simp [State.snkTaken, h]

@[simp] theorem State.snkTaken_snkIn (s : State) : s.snkTaken.snkIn = s.snkIn.tail := by
  unfold State.snkTaken; split <;> simp_all

theorem State.snkTaken_emit (s : State) (e : Event) : (s.emit e).snkTaken = s.snkTaken.emit e := by
  unfold State.snkTaken State.emit; dsimp only; split <;> simp_all

theorem State.snkAnswer_emit (s : State) (e : Event) : (s.emit e).snkAnswer = s.snkAnswer := rfl

theorem State.snkAnswer_nil (s : State) (h : s.snkIn = []) :
    s.snkAnswer = Config.freeSnk s.draws := by simp [State.snkAnswer, h]

theorem State.snkTaken_nil (s : State) (h : s.snkIn = []) :
    s.snkTaken = { s with draws := s.draws + 1 } := by simp [State.snkTaken, h]

/-- A frame that passed through FB leaves nothing there (R42). -/
@[simp] theorem State.fillFb_dropFb (s : State) (F : Frame) : (s.fillFb F).dropFb = s.dropFb := rfl

/-! ### `State.askBegin` -/

@[simp] theorem State.askBegin_params (s : State) (w h r : Nat) : (s.askBegin w h r).params = s.params := by simp [State.askBegin]
@[simp] theorem State.askBegin_mode (s : State) (w h r : Nat) : (s.askBegin w h r).mode = s.mode := by simp [State.askBegin]
@[simp] theorem State.askBegin_phase (s : State) (w h r : Nat) : (s.askBegin w h r).phase = s.phase := by simp [State.askBegin]
@[simp] theorem State.askBegin_errcode (s : State) (w h r : Nat) : (s.askBegin w h r).errcode = s.errcode := by simp [State.askBegin]
@[simp] theorem State.askBegin_lastcmd (s : State) (w h r : Nat) : (s.askBegin w h r).lastcmd = s.lastcmd := by simp [State.askBegin]
@[simp] theorem State.askBegin_width (s : State) (w h r : Nat) : (s.askBegin w h r).width = s.width := by simp [State.askBegin]
@[simp] theorem State.askBegin_height (s : State) (w h r : Nat) : (s.askBegin w h r).height = s.height := by simp [State.askBegin]
@[simp] theorem State.askBegin_rate (s : State) (w h r : Nat) : (s.askBegin w h r).rate = s.rate := by simp [State.askBegin]
@[simp] theorem State.askBegin_length (s : State) (w h r : Nat) : (s.askBegin w h r).length = s.length := by simp [State.askBegin]
@[simp] theorem State.askBegin_bpf (s : State) (w h r : Nat) : (s.askBegin w h r).bpf = s.bpf := by simp [State.askBegin]
@[simp] theorem State.askBegin_fcount (s : State) (w h r : Nat) : (s.askBegin w h r).fcount = s.fcount := by simp [State.askBegin]
@[simp] theorem State.askBegin_fidx (s : State) (w h r : Nat) : (s.askBegin w h r).fidx = s.fidx := by simp [State.askBegin]
@[simp] theorem State.askBegin_cursor (s : State) (w h r : Nat) : (s.askBegin w h r).cursor = s.cursor := by simp [State.askBegin]
@[simp] theorem State.askBegin_pbuf (s : State) (w h r : Nat) : (s.askBegin w h r).pbuf = s.pbuf := by simp [State.askBegin]
@[simp] theorem State.askBegin_fb (s : State) (w h r : Nat) : (s.askBegin w h r).fb = s.fb := by simp [State.askBegin]
@[simp] theorem State.askBegin_hist (s : State) (w h r : Nat) : (s.askBegin w h r).hist = s.hist ++ [.vwBegin w h r s.vwAnswer] := by simp [State.askBegin]
@[simp] theorem State.askBegin_sched (s : State) (w h r : Nat) : (s.askBegin w h r).sched = s.sched := by simp [State.askBegin]
@[simp] theorem State.askBegin_vwIn (s : State) (w h r : Nat) : (s.askBegin w h r).vwIn = s.vwIn.tail := by simp [State.askBegin]
@[simp] theorem State.askBegin_vrIn (s : State) (w h r : Nat) : (s.askBegin w h r).vrIn = s.vrIn := by simp [State.askBegin]
@[simp] theorem State.askBegin_srcIn (s : State) (w h r : Nat) : (s.askBegin w h r).srcIn = s.srcIn := by simp [State.askBegin]
@[simp] theorem State.askBegin_snkIn (s : State) (w h r : Nat) : (s.askBegin w h r).snkIn = s.snkIn := by simp [State.askBegin]
@[simp] theorem State.askBegin_draws (s : State) (w h r : Nat) : (s.askBegin w h r).draws = s.vwTaken.draws := by simp [State.askBegin]
@[simp] theorem State.askBegin_reads (s : State) (w h r : Nat) : (s.askBegin w h r).reads = s.reads := by simp [State.askBegin]

/-! ### `State.askPut` -/

@[simp] theorem State.askPut_params (s : State) (F : Frame) : (s.askPut F).params = s.params := by simp [State.askPut]
@[simp] theorem State.askPut_mode (s : State) (F : Frame) : (s.askPut F).mode = s.mode := by simp [State.askPut]
@[simp] theorem State.askPut_phase (s : State) (F : Frame) : (s.askPut F).phase = s.phase := by simp [State.askPut]
@[simp] theorem State.askPut_errcode (s : State) (F : Frame) : (s.askPut F).errcode = s.errcode := by simp [State.askPut]
@[simp] theorem State.askPut_lastcmd (s : State) (F : Frame) : (s.askPut F).lastcmd = s.lastcmd := by simp [State.askPut]
@[simp] theorem State.askPut_width (s : State) (F : Frame) : (s.askPut F).width = s.width := by simp [State.askPut]
@[simp] theorem State.askPut_height (s : State) (F : Frame) : (s.askPut F).height = s.height := by simp [State.askPut]
@[simp] theorem State.askPut_rate (s : State) (F : Frame) : (s.askPut F).rate = s.rate := by simp [State.askPut]
@[simp] theorem State.askPut_length (s : State) (F : Frame) : (s.askPut F).length = s.length := by simp [State.askPut]
@[simp] theorem State.askPut_bpf (s : State) (F : Frame) : (s.askPut F).bpf = s.bpf := by simp [State.askPut]
@[simp] theorem State.askPut_fcount (s : State) (F : Frame) : (s.askPut F).fcount = s.fcount := by simp [State.askPut]
@[simp] theorem State.askPut_fidx (s : State) (F : Frame) : (s.askPut F).fidx = s.fidx := by simp [State.askPut]
@[simp] theorem State.askPut_cursor (s : State) (F : Frame) : (s.askPut F).cursor = s.cursor := by simp [State.askPut]
@[simp] theorem State.askPut_pbuf (s : State) (F : Frame) : (s.askPut F).pbuf = s.pbuf := by simp [State.askPut]
@[simp] theorem State.askPut_fb (s : State) (F : Frame) : (s.askPut F).fb = none := by simp [State.askPut]
@[simp] theorem State.askPut_hist (s : State) (F : Frame) : (s.askPut F).hist = s.hist ++ [.vwPut F s.vwAnswer] := by simp [State.askPut]
@[simp] theorem State.askPut_sched (s : State) (F : Frame) : (s.askPut F).sched = s.sched := by simp [State.askPut]
@[simp] theorem State.askPut_vwIn (s : State) (F : Frame) : (s.askPut F).vwIn = s.vwIn.tail := by simp [State.askPut]
@[simp] theorem State.askPut_vrIn (s : State) (F : Frame) : (s.askPut F).vrIn = s.vrIn := by simp [State.askPut]
@[simp] theorem State.askPut_srcIn (s : State) (F : Frame) : (s.askPut F).srcIn = s.srcIn := by simp [State.askPut]
@[simp] theorem State.askPut_snkIn (s : State) (F : Frame) : (s.askPut F).snkIn = s.snkIn := by simp [State.askPut]
@[simp] theorem State.askPut_draws (s : State) (F : Frame) : (s.askPut F).draws = s.vwTaken.draws := by simp [State.askPut]
@[simp] theorem State.askPut_reads (s : State) (F : Frame) : (s.askPut F).reads = s.reads := by simp [State.askPut]

/-! ### `State.askFinish` -/

@[simp] theorem State.askFinish_params (s : State) : (s.askFinish).params = s.params := by simp [State.askFinish]
@[simp] theorem State.askFinish_mode (s : State) : (s.askFinish).mode = s.mode := by simp [State.askFinish]
@[simp] theorem State.askFinish_phase (s : State) : (s.askFinish).phase = s.phase := by simp [State.askFinish]
@[simp] theorem State.askFinish_errcode (s : State) : (s.askFinish).errcode = s.errcode := by simp [State.askFinish]
@[simp] theorem State.askFinish_lastcmd (s : State) : (s.askFinish).lastcmd = s.lastcmd := by simp [State.askFinish]
@[simp] theorem State.askFinish_width (s : State) : (s.askFinish).width = s.width := by simp [State.askFinish]
@[simp] theorem State.askFinish_height (s : State) : (s.askFinish).height = s.height := by simp [State.askFinish]
@[simp] theorem State.askFinish_rate (s : State) : (s.askFinish).rate = s.rate := by simp [State.askFinish]
@[simp] theorem State.askFinish_length (s : State) : (s.askFinish).length = s.length := by simp [State.askFinish]
@[simp] theorem State.askFinish_bpf (s : State) : (s.askFinish).bpf = s.bpf := by simp [State.askFinish]
@[simp] theorem State.askFinish_fcount (s : State) : (s.askFinish).fcount = s.fcount := by simp [State.askFinish]
@[simp] theorem State.askFinish_fidx (s : State) : (s.askFinish).fidx = s.fidx := by simp [State.askFinish]
@[simp] theorem State.askFinish_cursor (s : State) : (s.askFinish).cursor = s.cursor := by simp [State.askFinish]
@[simp] theorem State.askFinish_pbuf (s : State) : (s.askFinish).pbuf = s.pbuf := by simp [State.askFinish]
@[simp] theorem State.askFinish_fb (s : State) : (s.askFinish).fb = s.fb := by simp [State.askFinish]
@[simp] theorem State.askFinish_hist (s : State) : (s.askFinish).hist = s.hist ++ [.vwFinish s.vwAnswer] := by simp [State.askFinish]
@[simp] theorem State.askFinish_sched (s : State) : (s.askFinish).sched = s.sched := by simp [State.askFinish]
@[simp] theorem State.askFinish_vwIn (s : State) : (s.askFinish).vwIn = s.vwIn.tail := by simp [State.askFinish]
@[simp] theorem State.askFinish_vrIn (s : State) : (s.askFinish).vrIn = s.vrIn := by simp [State.askFinish]
@[simp] theorem State.askFinish_srcIn (s : State) : (s.askFinish).srcIn = s.srcIn := by simp [State.askFinish]
@[simp] theorem State.askFinish_snkIn (s : State) : (s.askFinish).snkIn = s.snkIn := by simp [State.askFinish]
@[simp] theorem State.askFinish_draws (s : State) : (s.askFinish).draws = s.vwTaken.draws := by simp [State.askFinish]
@[simp] theorem State.askFinish_reads (s : State) : (s.askFinish).reads = s.reads := by simp [State.askFinish]

/-! ### `State.askNext` -/

@[simp] theorem State.askNext_params (s : State) : (s.askNext).params = s.params := by simp [State.askNext]
@[simp] theorem State.askNext_mode (s : State) : (s.askNext).mode = s.mode := by simp [State.askNext]
@[simp] theorem State.askNext_phase (s : State) : (s.askNext).phase = s.phase := by simp [State.askNext]
@[simp] theorem State.askNext_errcode (s : State) : (s.askNext).errcode = s.errcode := by simp [State.askNext]
@[simp] theorem State.askNext_lastcmd (s : State) : (s.askNext).lastcmd = s.lastcmd := by simp [State.askNext]
@[simp] theorem State.askNext_width (s : State) : (s.askNext).width = s.width := by simp [State.askNext]
@[simp] theorem State.askNext_height (s : State) : (s.askNext).height = s.height := by simp [State.askNext]
@[simp] theorem State.askNext_rate (s : State) : (s.askNext).rate = s.rate := by simp [State.askNext]
@[simp] theorem State.askNext_length (s : State) : (s.askNext).length = s.length := by simp [State.askNext]
@[simp] theorem State.askNext_bpf (s : State) : (s.askNext).bpf = s.bpf := by simp [State.askNext]
@[simp] theorem State.askNext_fcount (s : State) : (s.askNext).fcount = s.fcount := by simp [State.askNext]
@[simp] theorem State.askNext_fidx (s : State) : (s.askNext).fidx = s.fidx := by simp [State.askNext]
@[simp] theorem State.askNext_cursor (s : State) : (s.askNext).cursor = s.cursor := by simp [State.askNext]
@[simp] theorem State.askNext_pbuf (s : State) : (s.askNext).pbuf = s.pbuf := by simp [State.askNext]
@[simp] theorem State.askNext_fb (s : State) : (s.askNext).fb = s.fb := by simp [State.askNext]
@[simp] theorem State.askNext_hist (s : State) : (s.askNext).hist = s.hist ++ [.vrNext s.vrAnswer] := by simp [State.askNext]
@[simp] theorem State.askNext_sched (s : State) : (s.askNext).sched = s.sched := by simp [State.askNext]
@[simp] theorem State.askNext_vwIn (s : State) : (s.askNext).vwIn = s.vwIn := by simp [State.askNext]
@[simp] theorem State.askNext_vrIn (s : State) : (s.askNext).vrIn = s.vrIn.tail := by simp [State.askNext]
@[simp] theorem State.askNext_srcIn (s : State) : (s.askNext).srcIn = s.srcIn := by simp [State.askNext]
@[simp] theorem State.askNext_snkIn (s : State) : (s.askNext).snkIn = s.snkIn := by simp [State.askNext]
@[simp] theorem State.askNext_draws (s : State) : (s.askNext).draws = s.vrTaken.draws := by simp [State.askNext]
@[simp] theorem State.askNext_reads (s : State) : (s.askNext).reads = s.reads := by simp [State.askNext]

/-! ### `State.askRead` -/

@[simp] theorem State.askRead_params (s : State) : (s.askRead).params = s.params := by simp [State.askRead]
@[simp] theorem State.askRead_mode (s : State) : (s.askRead).mode = s.mode := by simp [State.askRead]
@[simp] theorem State.askRead_phase (s : State) : (s.askRead).phase = s.phase := by simp [State.askRead]
@[simp] theorem State.askRead_errcode (s : State) : (s.askRead).errcode = s.errcode := by simp [State.askRead]
@[simp] theorem State.askRead_lastcmd (s : State) : (s.askRead).lastcmd = s.lastcmd := by simp [State.askRead]
@[simp] theorem State.askRead_width (s : State) : (s.askRead).width = s.width := by simp [State.askRead]
@[simp] theorem State.askRead_height (s : State) : (s.askRead).height = s.height := by simp [State.askRead]
@[simp] theorem State.askRead_rate (s : State) : (s.askRead).rate = s.rate := by simp [State.askRead]
@[simp] theorem State.askRead_length (s : State) : (s.askRead).length = s.length := by simp [State.askRead]
@[simp] theorem State.askRead_bpf (s : State) : (s.askRead).bpf = s.bpf := by simp [State.askRead]
@[simp] theorem State.askRead_fcount (s : State) : (s.askRead).fcount = s.fcount := by simp [State.askRead]
@[simp] theorem State.askRead_fidx (s : State) : (s.askRead).fidx = s.fidx := by simp [State.askRead]
@[simp] theorem State.askRead_cursor (s : State) : (s.askRead).cursor = s.cursor := by simp [State.askRead]
@[simp] theorem State.askRead_pbuf (s : State) : (s.askRead).pbuf = s.pbuf := by simp [State.askRead]
@[simp] theorem State.askRead_fb (s : State) : (s.askRead).fb = s.fb := by simp [State.askRead]
@[simp] theorem State.askRead_hist (s : State) : (s.askRead).hist = s.hist ++ [.srcRead s.srcAnswer] := by simp [State.askRead]
@[simp] theorem State.askRead_sched (s : State) : (s.askRead).sched = s.sched := by simp [State.askRead]
@[simp] theorem State.askRead_vwIn (s : State) : (s.askRead).vwIn = s.vwIn := by simp [State.askRead]
@[simp] theorem State.askRead_vrIn (s : State) : (s.askRead).vrIn = s.vrIn := by simp [State.askRead]
@[simp] theorem State.askRead_srcIn (s : State) : (s.askRead).srcIn = s.srcIn.tail := by simp [State.askRead]
@[simp] theorem State.askRead_snkIn (s : State) : (s.askRead).snkIn = s.snkIn := by simp [State.askRead]
@[simp] theorem State.askRead_draws (s : State) : (s.askRead).draws = s.srcTaken.draws := by simp [State.askRead]
@[simp] theorem State.askRead_reads (s : State) : (s.askRead).reads = s.reads := by simp [State.askRead]

/-! ### `State.askCommit` -/

@[simp] theorem State.askCommit_params (s : State) (B : List Byte) : (s.askCommit B).params = s.params := by simp [State.askCommit]
@[simp] theorem State.askCommit_mode (s : State) (B : List Byte) : (s.askCommit B).mode = s.mode := by simp [State.askCommit]
@[simp] theorem State.askCommit_phase (s : State) (B : List Byte) : (s.askCommit B).phase = s.phase := by simp [State.askCommit]
@[simp] theorem State.askCommit_errcode (s : State) (B : List Byte) : (s.askCommit B).errcode = s.errcode := by simp [State.askCommit]
@[simp] theorem State.askCommit_lastcmd (s : State) (B : List Byte) : (s.askCommit B).lastcmd = s.lastcmd := by simp [State.askCommit]
@[simp] theorem State.askCommit_width (s : State) (B : List Byte) : (s.askCommit B).width = s.width := by simp [State.askCommit]
@[simp] theorem State.askCommit_height (s : State) (B : List Byte) : (s.askCommit B).height = s.height := by simp [State.askCommit]
@[simp] theorem State.askCommit_rate (s : State) (B : List Byte) : (s.askCommit B).rate = s.rate := by simp [State.askCommit]
@[simp] theorem State.askCommit_length (s : State) (B : List Byte) : (s.askCommit B).length = s.length := by simp [State.askCommit]
@[simp] theorem State.askCommit_bpf (s : State) (B : List Byte) : (s.askCommit B).bpf = s.bpf := by simp [State.askCommit]
@[simp] theorem State.askCommit_fcount (s : State) (B : List Byte) : (s.askCommit B).fcount = s.fcount := by simp [State.askCommit]
@[simp] theorem State.askCommit_fidx (s : State) (B : List Byte) : (s.askCommit B).fidx = s.fidx := by simp [State.askCommit]
@[simp] theorem State.askCommit_cursor (s : State) (B : List Byte) : (s.askCommit B).cursor = s.cursor := by simp [State.askCommit]
@[simp] theorem State.askCommit_pbuf (s : State) (B : List Byte) : (s.askCommit B).pbuf = s.pbuf := by simp [State.askCommit]
@[simp] theorem State.askCommit_fb (s : State) (B : List Byte) : (s.askCommit B).fb = s.fb := by simp [State.askCommit]
@[simp] theorem State.askCommit_hist (s : State) (B : List Byte) : (s.askCommit B).hist = s.hist ++ [.snkCommit B s.snkAnswer] := by simp [State.askCommit]
@[simp] theorem State.askCommit_sched (s : State) (B : List Byte) : (s.askCommit B).sched = s.sched := by simp [State.askCommit]
@[simp] theorem State.askCommit_vwIn (s : State) (B : List Byte) : (s.askCommit B).vwIn = s.vwIn := by simp [State.askCommit]
@[simp] theorem State.askCommit_vrIn (s : State) (B : List Byte) : (s.askCommit B).vrIn = s.vrIn := by simp [State.askCommit]
@[simp] theorem State.askCommit_srcIn (s : State) (B : List Byte) : (s.askCommit B).srcIn = s.srcIn := by simp [State.askCommit]
@[simp] theorem State.askCommit_snkIn (s : State) (B : List Byte) : (s.askCommit B).snkIn = s.snkIn.tail := by simp [State.askCommit]
@[simp] theorem State.askCommit_draws (s : State) (B : List Byte) : (s.askCommit B).draws = s.snkTaken.draws := by simp [State.askCommit]
@[simp] theorem State.askCommit_reads (s : State) (B : List Byte) : (s.askCommit B).reads = s.reads := by simp [State.askCommit]

/-! ### The two writer requests of ENC_META (R143): the second answer is the one after BEGIN's -/

theorem State.askBegin_vwAnswer (s : State) (w h r : Nat) : (s.askBegin w h r).vwAnswer = s.vwTaken.vwAnswer := rfl

theorem State.askBegin_vwTaken (s : State) (w h r : Nat) :
    (s.askBegin w h r).vwTaken = s.vwTaken.vwTaken.emit (.vwBegin w h r s.vwAnswer) := State.vwTaken_emit _ _

end Sys2Proof.Machine
end

