-- ==== Sys2Proof/Laws/Ops.lean ====
section
/-! SUPPORT. What each shared operation and each meaning can answer, said once: "if it answers next t, then one of
these cases holds". -/

namespace Sys2Proof.Machine

/-! ### STATUS and acceptance -/

theorem State.heldFault_eq_none (s : State) :
    s.heldFault = none ↔ pairHeld s.mode s.phase = true ∧ errcodeHeld s.errcode = true ∧ s.lastcmd ≠ 3 := by
  unfold State.heldFault
  split
  · simp_all
  · split
    · simp_all
    · split <;> simp_all

/-- The turns to come are not looked at by the check of never-held values. -/
@[simp] theorem State.heldFault_sched (s : State) (l : List Turn) :
    State.heldFault { s with sched := l } = s.heldFault := rfl

@[simp] theorem State.selector_sched (s : State) (l : List Turn) :
    State.selector { s with sched := l } = s.selector := rfl

theorem modeIdle_iff (m : BitVec 3) : modeIdle m = true ↔ m = 0 ∨ m = 3 ∨ m = 4 := by
  revert m; decide

theorem modeRunning_iff (m : BitVec 3) : modeRunning m = true ↔ m = 1 ∨ m = 2 := by
  revert m; decide

/-- R200: the acceptance table of the STARTs and of CLEAR. -/
theorem accept_iff (m : BitVec 3) :
    (acceptEncStart m = some true ↔ modeIdle m = true) ∧ (acceptEncStart m = some false ↔ modeRunning m = true) ∧
    (acceptDecStart m = some true ↔ modeIdle m = true) ∧ (acceptDecStart m = some false ↔ modeRunning m = true) ∧
    (acceptClear m = some true ↔ modeIdle m = true) ∧ (acceptClear m = some false ↔ modeRunning m = true) := by
  revert m; decide

/-- R200: ABORT is accepted in every MODE of the table. -/
theorem acceptAbort_iff (m : BitVec 3) :
    (acceptAbort m = some true ↔ modeIdle m = true ∨ modeRunning m = true) ∧ acceptAbort m ≠ some false := by
  revert m; decide

/-- R200, R201: a command answers its effect, or only LASTCMD changes. -/
theorem State.issue_next {s t eff : State} {acc : Option Bool} (h : s.issue acc eff = .next t) :
    (acc = some true ∧ t = eff) ∨ (acc = some false ∧ t = { s with lastcmd := LastCmd.wrongState }) := by
  unfold State.issue at h
  split at h <;> simp_all

/-! ### Commands -/

theorem execEncStart_next {s t : State} (h : execEncStart s = .next t) :
    (modeIdle s.mode = true ∧ t = encStartEffect s) ∨
    (modeRunning s.mode = true ∧ t = { s with lastcmd := LastCmd.wrongState }) := by
  have ha := accept_iff s.mode
  exact (State.issue_next h).imp (fun h => ⟨ha.1.1 h.1, h.2⟩) (fun h => ⟨ha.2.1.1 h.1, h.2⟩)

/-- R202, R232: the three ways an accepted ENC_START ends. -/
theorem encStartEffect_cases (s : State) :
    (validGeom s.params s.width.toNat s.height.toNat = false ∧
      encStartEffect s = s.startClear.raise ErrCode.invalidFrameGeometry) ∨
    (validGeom s.params s.width.toNat s.height.toNat = true ∧ s.rate = 0 ∧
      encStartEffect s = s.startClear.raise ErrCode.invalidFrameRate) ∨
    (validGeom s.params s.width.toNat s.height.toNat = true ∧ s.rate ≠ 0 ∧
      encStartEffect s = { s.startClear with
        bpf := BitVec.ofNat 32 (bytesPerFrame s.width.toNat s.height.toNat)
        mode := Mode.enc, phase := Phase.encLoad }) := by
  unfold encStartEffect
  split
  · exact .inl ⟨by assumption, rfl⟩
  · rename_i hg
    rw [Bool.not_eq_false] at hg
    split
    · exact .inr (.inl ⟨hg, by assumption, rfl⟩)
    · exact .inr (.inr ⟨hg, by assumption, rfl⟩)

theorem execDecStart_next {s t : State} (h : execDecStart s = .next t) :
    (modeIdle s.mode = true ∧ t = { s.startClear with mode := Mode.dec, phase := Phase.decMeta }) ∨
    (modeRunning s.mode = true ∧ t = { s with lastcmd := LastCmd.wrongState }) := by
  have ha := accept_iff s.mode
  exact (State.issue_next h).imp (fun h => ⟨ha.2.2.1.1 h.1, h.2⟩) (fun h => ⟨ha.2.2.2.1.1 h.1, h.2⟩)

theorem execAbort_next {s t : State} (h : execAbort s = .next t) : t = abortEffect s := by
  have ha := acceptAbort_iff s.mode
  exact (State.issue_next h).elim (fun h => h.2) (fun h => absurd h.1 ha.2)

/-- R210: what ABORT does in each MODE. -/
theorem abortEffect_cases (s : State) :
    (s.mode = Mode.enc ∧ s.vwOpen = true ∧
      abortEffect s = (State.emit { s with lastcmd := LastCmd.accepted } .vwDiscard).raise ErrCode.aborted) ∨
    (s.mode = Mode.enc ∧ s.vwOpen = false ∧
      abortEffect s = State.raise { s with lastcmd := LastCmd.accepted } ErrCode.aborted) ∨
    (s.mode = Mode.dec ∧ s.vrHeld = true ∧
      abortEffect s = (State.emit { s with lastcmd := LastCmd.accepted } .vrRelease).raise ErrCode.aborted) ∨
    (s.mode = Mode.dec ∧ s.vrHeld = false ∧
      abortEffect s = State.raise { s with lastcmd := LastCmd.accepted } ErrCode.aborted) ∨
    (s.mode ≠ Mode.enc ∧ s.mode ≠ Mode.dec ∧ abortEffect s = { s with lastcmd := LastCmd.accepted }) := by
  unfold abortEffect
  by_cases he : s.mode = Mode.enc
  · simp only [if_pos he]
    cases hv : s.vwOpen
    · exact .inr (.inl ⟨he, rfl, by simp⟩)
    · exact .inl ⟨he, rfl, by simp⟩
  · simp only [if_neg he]
    by_cases hd : s.mode = Mode.dec
    · simp only [if_pos hd]
      cases hv : s.vrHeld
      · exact .inr (.inr (.inr (.inl ⟨hd, rfl, by simp⟩)))
      · exact .inr (.inr (.inl ⟨hd, rfl, by simp⟩))
    · exact .inr (.inr (.inr (.inr ⟨he, hd, by simp only [if_neg hd]⟩)))

theorem execClear_next {s t : State} (h : execClear s = .next t) :
    (modeIdle s.mode = true ∧ t = clearEffect s) ∨
    (modeRunning s.mode = true ∧ t = { s with lastcmd := LastCmd.wrongState }) := by
  have ha := accept_iff s.mode
  exact (State.issue_next h).imp (fun h => ⟨ha.2.2.2.2.1.1 h.1, h.2⟩) (fun h => ⟨ha.2.2.2.2.2.1 h.1, h.2⟩)

/-! ### Encoder steps -/

theorem execEncLoad_next {s t : State} (h : execEncLoad s = .next t) :
    (∃ c, errcodeHeld c = true ∧ c ≠ ErrCode.none ∧ t = s.askRead.raise c) ∨
    (∃ B, s.srcAnswer = .bytes B ∧ B ≠ [] ∧ B.length ≤ s.params.pbufSize ∧
      t = { s.askRead with
        pbuf := s.pbuf.writeBytes 0 B
        length := BitVec.ofNat 32 B.length
        fcount := BitVec.ofNat 32 (ceilDiv B.length s.bpf.toNat)
        phase := Phase.encMeta }) := by
  unfold execEncLoad at h
  simp only at h
  split at h
  · exact .inl ⟨ErrCode.inputRead, rfl, by decide, (by simpa using h.symm)⟩
  · rename_i B hB
    split at h
    · exact .inl ⟨ErrCode.emptyPayload, rfl, by decide, (by simpa using h.symm)⟩
    · rename_i h0
      split at h
      · exact .inl ⟨ErrCode.payloadTooLarge, rfl, by decide, (by simpa using h.symm)⟩
      · rename_i hs
        split at h
        · simp at h
        · rename_i u hu
          obtain ⟨-, rfl⟩ := (State.memWrite_eq_ok _ _ _ _).1 hu
          refine .inr ⟨B, hB, fun h => h0 (by simp [h]), by omega, ?_⟩
          simpa using h.symm

theorem execEncMeta_next {s t : State} (h : execEncMeta s = .next t) :
    (s.vwAnswer = .err ∧ t = (s.askBegin s.width.toNat s.height.toNat s.rate.toNat).failWriter) ∨
    (s.vwAnswer = .ok ∧ ∃ u, u = (s.askBegin s.width.toNat s.height.toNat s.rate.toNat).askPut
        (encodeMetadata s.length s.width.toNat s.height.toNat) ∧
      (((s.askBegin s.width.toNat s.height.toNat s.rate.toNat).vwAnswer = .err ∧ t = u.failWriter) ∨
       ((s.askBegin s.width.toNat s.height.toNat s.rate.toNat).vwAnswer = .ok ∧
        t = { u with fidx := 1, phase := Phase.encData }))) := by
  unfold execEncMeta at h
  simp only at h
  split at h
  · exact .inl ⟨by assumption, by simpa using h.symm⟩
  · split at h
    · refine .inr ⟨by assumption, _, rfl, ?_⟩
      split at h
      · exact .inl ⟨by assumption, by simpa using h.symm⟩
      · exact .inr ⟨by assumption, by simpa using h.symm⟩
    · simp at h

theorem execEncData_next {s t : State} (h : execEncData s = .next t) :
    ∃ B, s.pbuf.readBytes s.cursor.toNat s.chunk = some B ∧
      ((s.vwAnswer = .err ∧ t = (s.askPut (packFrame s.width.toNat s.height.toNat B)).failWriter) ∨
       (s.vwAnswer = .ok ∧
        t = { s.askPut (packFrame s.width.toNat s.height.toNat B) with
          cursor := BitVec.ofNat 32 (s.cursor.toNat + s.chunk)
          fidx := BitVec.ofNat 32 (s.fidx.toNat + 1)
          phase := if s.fidx.toNat + 1 = s.fcount.toNat + 1 then Phase.encFinish else s.phase })) := by
  unfold execEncData at h
  split at h
  · simp at h
  · rename_i B hB
    obtain ⟨-, hB⟩ := (State.memRead_eq_ok _ _ _ _).1 hB
    simp only at h
    split at h
    · refine ⟨B, hB, ?_⟩
      split at h
      · exact .inl ⟨by assumption, by simpa using h.symm⟩
      · exact .inr ⟨by assumption, by simpa using h.symm⟩
    · simp at h

theorem execEncFinish_next {s t : State} (h : execEncFinish s = .next t) :
    (s.vwAnswer = .err ∧ t = s.askFinish.failWriter) ∨
    (s.vwAnswer = .ok ∧ t = { s.askFinish with mode := Mode.done, phase := 0 }) := by
  unfold execEncFinish at h
  split at h
  · exact .inl ⟨by assumption, by simpa using h.symm⟩
  · exact .inr ⟨by assumption, by simpa using h.symm⟩

/-! ### Decoder steps -/

/-- R170: what DEC_META writes once every check has passed. -/
theorem latchHeader_cases (s : State) (F : Frame) :
    ∃ t : State, t = { s with
      width := BitVec.ofNat 16 F.w, height := BitVec.ofNat 16 F.h
      bpf := BitVec.ofNat 32 (bytesPerFrame F.w F.h)
      length := decodeMetadata F
      fcount := BitVec.ofNat 32 (ceilDiv (decodeMetadata F).toNat (bytesPerFrame F.w F.h))
      fidx := 1 } ∧
    ((decodeMetadata F = 0 ∧ latchHeader s F = { t.emit .vrRelease with phase := Phase.decCommit }) ∨
     (decodeMetadata F ≠ 0 ∧ latchHeader s F = { t with phase := Phase.decData })) := by
  refine ⟨_, rfl, ?_⟩
  unfold latchHeader
  by_cases h : decodeMetadata F = 0
  · exact .inl ⟨h, by simp only [h, if_true]⟩
  · exact .inr ⟨h, by simp only [h, if_false]⟩

/-- R170. (The last equation has the next state on its right, so that it substitutes without evaluating the header.) -/
theorem execDecMeta_next {s t : State} (h : execDecMeta s = .next t) :
    (∃ c, errcodeHeld c = true ∧ c ≠ ErrCode.none ∧ t = s.askNext.failReader c ∧ (s.vrAnswer = .eos ∨ s.vrAnswer = .err)) ∨
    (∃ F, s.vrAnswer = .frame F ∧
      ((∃ c, errcodeHeld c = true ∧ c ≠ ErrCode.none ∧ t = s.askNext.dropFb.failReader c) ∨
       (validGeom s.params F.w F.h = true ∧ (decodeMetadata F).toNat ≤ s.params.pbufSize ∧
        latchHeader s.askNext.dropFb F = t))) := by
  unfold execDecMeta at h
  simp only at h
  split at h
  · exact .inl ⟨ErrCode.lengthMismatch, rfl, by decide, by simpa using h.symm, by simp_all⟩
  · exact .inl ⟨ErrCode.containerRead, rfl, by decide, by simpa using h.symm, by simp_all⟩
  · rename_i F hF
    refine .inr ⟨F, hF, ?_⟩
    split at h
    · exact .inl ⟨ErrCode.invalidFrameGeometry, rfl, by decide, by simpa using h.symm⟩
    · split at h
      · exact .inl ⟨ErrCode.payloadTooLarge, rfl, by decide, by simpa using h.symm⟩
      · refine .inr ⟨by simp_all, by omega, by simpa using h⟩

/-- R173: what DEC_DATA writes after the payload bytes. -/
theorem advanceDecode_cases (s : State) (m : Nat) :
    ∃ t : State, t = { s with
      cursor := BitVec.ofNat 32 (s.cursor.toNat + m), fidx := BitVec.ofNat 32 (s.fidx.toNat + 1) } ∧
    ((s.cursor.toNat + m = s.length.toNat ∧
        advanceDecode s m = { t.emit .vrRelease with phase := Phase.decCommit }) ∨
     (s.cursor.toNat + m ≠ s.length.toNat ∧ advanceDecode s m = t)) := by
  refine ⟨_, rfl, ?_⟩
  unfold advanceDecode
  by_cases h : s.cursor.toNat + m = s.length.toNat
  · exact .inl ⟨h, by simp only [h, if_true]⟩
  · exact .inr ⟨h, by simp only [h, if_false]⟩

theorem execDecData_next {s t : State} (h : execDecData s = .next t) :
    (∃ c, errcodeHeld c = true ∧ c ≠ ErrCode.none ∧ t = s.askNext.failReader c ∧ (s.vrAnswer = .eos ∨ s.vrAnswer = .err)) ∨
    (∃ F, s.vrAnswer = .frame F ∧
      ((∃ c, errcodeHeld c = true ∧ c ≠ ErrCode.none ∧ t = s.askNext.dropFb.failReader c) ∨
       (F.w = s.width.toNat ∧ F.h = s.height.toNat ∧ s.cursor.toNat + s.chunk ≤ s.params.pbufSize ∧
        t = advanceDecode { s.askNext.dropFb with
          pbuf := s.pbuf.writeBytes s.cursor.toNat (unpackFrame F s.width.toNat s.chunk) } s.chunk))) := by
  unfold execDecData at h
  simp only at h
  split at h
  · exact .inl ⟨ErrCode.lengthMismatch, rfl, by decide, by simpa using h.symm, by simp_all⟩
  · exact .inl ⟨ErrCode.containerRead, rfl, by decide, by simpa using h.symm, by simp_all⟩
  · rename_i F hF
    refine .inr ⟨F, hF, ?_⟩
    split at h
    · exact .inl ⟨ErrCode.invalidFrameGeometry, rfl, by decide, by simpa using h.symm⟩
    · rename_i hg
      have hg : F.w = s.width.toNat ∧ F.h = s.height.toNat := by simpa using hg
      split at h
      · split at h
        · simp at h
        · rename_i u hu
          obtain ⟨hr, rfl⟩ := (State.memWrite_eq_ok _ _ _ _).1 hu
          refine .inr ⟨hg.1, hg.2, ?_, by simpa using h.symm⟩
          simpa [unpackFrame] using hr
      · simp at h

theorem execDecCommit_next {s t : State} (h : execDecCommit s = .next t) :
    ∃ B, s.pbuf.readBytes 0 s.length.toNat = some B ∧
      ((s.snkAnswer = .err ∧ t = (s.askCommit B).raise ErrCode.outputWrite) ∨
       (s.snkAnswer = .ok ∧ t = { s.askCommit B with mode := Mode.done, phase := 0 })) := by
  unfold execDecCommit at h
  split at h
  · simp at h
  · rename_i B hB
    obtain ⟨-, hB⟩ := (State.memRead_eq_ok _ _ _ _).1 hB
    refine ⟨B, hB, ?_⟩
    split at h
    · exact .inl ⟨by assumption, by simpa using h.symm⟩
    · exact .inr ⟨by assumption, by simpa using h.symm⟩

end Sys2Proof.Machine
end

