-- ==== Sys2Proof/Laws/PerInstr.lean ====
section
/-! SUPPORT. What holds of every instruction as syntax: its word fits its format (R81, R82, R86). -/

namespace Sys2Proof.Laws.EncodingForm

/-- A command's word has its MBZ bits 31:8 zero and an OPCODE of 1 to 4; an engine step's selector holds MODE = ENC
with a PHASE of 0 to 3, or MODE = DEC with a PHASE of 0 to 2. -/
def Statement (i : Instr) : Prop :=
  match encode i with
  | .cmd v => v.extractLsb' 8 24 = 0 ∧ 1 ≤ (v.extractLsb' 0 8).toNat ∧ (v.extractLsb' 0 8).toNat ≤ 4
  | .sel x =>
    (x.extractLsb' 0 3 = 1 ∧ (x.extractLsb' 3 3).toNat ≤ 3) ∨ (x.extractLsb' 0 3 = 2 ∧ (x.extractLsb' 3 3).toNat ≤ 2)

theorem encStart : Statement .encStart := by simp [Statement, encode]
theorem decStart : Statement .decStart := by simp [Statement, encode]
theorem abort : Statement .abort := by simp [Statement, encode]
theorem clear : Statement .clear := by simp [Statement, encode]
theorem encLoad : Statement .encLoad := by simp [Statement, encode]
theorem encMeta : Statement .encMeta := by simp [Statement, encode]
theorem encData : Statement .encData := by simp [Statement, encode]
theorem encFinish : Statement .encFinish := by simp [Statement, encode]
theorem decMeta : Statement .decMeta := by simp [Statement, encode]
theorem decData : Statement .decData := by simp [Statement, encode]
theorem decCommit : Statement .decCommit := by simp [Statement, encode]

end Sys2Proof.Laws.EncodingForm
end

