-- ==== Sys2Proof/Laws/Step.lean ====
section
/-! SUPPORT. What one step can do, said once. -/

namespace Sys2Proof.Machine

theorem hostRead_next {i : Index} {s t : State} (h : hostRead i s = .next t) :
    s.heldFault = none ∧ t = { s with reads := s.reads ++ [s.readWord i] } := by
  unfold hostRead at h
  split at h
  · simp at h
  · exact ⟨by assumption, by simpa using h.symm⟩

theorem hostWrite_next {i : Index} {v : Word} {s t : State} (h : hostWrite i v s = .next t) :
    s.heldFault = none ∧
    ((i = 0 ∧ ∃ c, decodeCmd v = .ok c ∧ exec c s = .next t) ∨
     (i = 0 ∧ (∃ r, decodeCmd v = .error r) ∧ t = { s with lastcmd := LastCmd.illegal }) ∨
     (i ≠ 0 ∧ t = s.writeWord i v)) := by
  unfold hostWrite at h
  split at h
  · simp at h
  · refine ⟨by assumption, ?_⟩
    split at h
    · split at h
      · exact .inl ⟨by assumption, _, by assumption, h⟩
      · exact .inr (.inl ⟨by assumption, ⟨_, by assumption⟩, by simpa using h.symm⟩)
    · exact .inr (.inr ⟨by assumption, by simpa using h.symm⟩)

theorem engineTurn_next {s t : State} (h : engineTurn s = .next t) :
    s.heldFault = none ∧
    ((∃ c, decodeSel s.selector = .ok c ∧ exec c s = .next t) ∨
     ((∀ c, decodeSel s.selector ≠ .ok c) ∧ t = s)) := by
  unfold engineTurn at h
  split at h
  · simp at h
  · refine ⟨by assumption, ?_⟩
    split at h
    · exact .inl ⟨_, by assumption, h⟩
    · simp at h
    · exact .inr ⟨by simp_all, by simpa using h.symm⟩

/-- R82: the four commands. -/
theorem decodeCmd_ok {v : Word} {c : Instr} (h : decodeCmd v = .ok c) :
    c = .encStart ∨ c = .decStart ∨ c = .abort ∨ c = .clear := by
  unfold decodeCmd at h
  split_ifs at h <;> simp only [Except.ok.injEq] at h <;> subst h <;> decide

/-- R86: the engine step a state selects, with the MODE and PHASE it stands for. -/
theorem decodeSel_ok {s : State} {c : Instr} (h : decodeSel s.selector = .ok c) :
    (c = .encLoad ∧ s.mode = Mode.enc ∧ s.phase = Phase.encLoad) ∨
    (c = .encMeta ∧ s.mode = Mode.enc ∧ s.phase = Phase.encMeta) ∨
    (c = .encData ∧ s.mode = Mode.enc ∧ s.phase = Phase.encData) ∨
    (c = .encFinish ∧ s.mode = Mode.enc ∧ s.phase = Phase.encFinish) ∨
    (c = .decMeta ∧ s.mode = Mode.dec ∧ s.phase = Phase.decMeta) ∨
    (c = .decData ∧ s.mode = Mode.dec ∧ s.phase = Phase.decData) ∨
    (c = .decCommit ∧ s.mode = Mode.dec ∧ s.phase = Phase.decCommit) := by
  have key : ∀ p m : BitVec 3,
      (decodeSel (p ++ m) = .ok .encStart → False) ∧ (decodeSel (p ++ m) = .ok .decStart → False) ∧
      (decodeSel (p ++ m) = .ok .abort → False) ∧ (decodeSel (p ++ m) = .ok .clear → False) ∧
      (decodeSel (p ++ m) = .ok .encLoad → m = 1 ∧ p = 0) ∧ (decodeSel (p ++ m) = .ok .encMeta → m = 1 ∧ p = 1) ∧
      (decodeSel (p ++ m) = .ok .encData → m = 1 ∧ p = 2) ∧ (decodeSel (p ++ m) = .ok .encFinish → m = 1 ∧ p = 3) ∧
      (decodeSel (p ++ m) = .ok .decMeta → m = 2 ∧ p = 0) ∧ (decodeSel (p ++ m) = .ok .decData → m = 2 ∧ p = 1) ∧
      (decodeSel (p ++ m) = .ok .decCommit → m = 2 ∧ p = 2) := by decide
  have := key s.phase s.mode
  unfold State.selector at h
  cases c <;> simp [h] at this ⊢ <;> simpa using this

/-- What a step that answers a next state did: a reset, or (in a state with no never-held value) a Host read, a
command, an illegal command word, a write of another word, an engine step, or a turn that passes. -/
theorem step_next {s t : State} (h : step s = .next t) :
    (∃ rest, s.sched = .reset :: rest ∧ t = State.resetBlock { s with sched := rest }) ∨
    (s.heldFault = none ∧ ∃ rest,
      ((∃ i, s.sched = .read i :: rest ∧ t = { s with sched := rest, reads := s.reads ++ [s.readWord i] }) ∨
       (∃ v c, s.sched = .write 0 v :: rest ∧ decodeCmd v = .ok c ∧ exec c { s with sched := rest } = .next t) ∨
       (∃ v r, s.sched = .write 0 v :: rest ∧ decodeCmd v = .error r ∧
          t = { s with sched := rest, lastcmd := LastCmd.illegal }) ∨
       (∃ i v, s.sched = .write i v :: rest ∧ i ≠ 0 ∧ t = State.writeWord { s with sched := rest } i v) ∨
       ((s.sched = .engine :: rest ∨ (s.sched = [] ∧ rest = [])) ∧
        ((∃ c, decodeSel s.selector = .ok c ∧ exec c { s with sched := rest } = .next t) ∨
         ((∀ c, decodeSel s.selector ≠ .ok c) ∧ t = { s with sched := rest }))))) := by
  unfold step takeTurn at h
  split at h
  · rename_i he
    obtain ⟨h1, h2⟩ := engineTurn_next h
    have hs : ({ s with sched := [] } : State) = s := by rw [← he]
    exact .inr ⟨h1, [], .inr (.inr (.inr (.inr ⟨.inr ⟨he, rfl⟩, by rwa [hs]⟩)))⟩
  · rename_i rest he
    obtain ⟨h1, h2⟩ := engineTurn_next h
    exact .inr ⟨h1, rest, .inr (.inr (.inr (.inr ⟨.inl he, h2⟩)))⟩
  · rename_i i rest he
    obtain ⟨h1, rfl⟩ := hostRead_next h
    exact .inr ⟨h1, rest, .inl ⟨i, he, rfl⟩⟩
  · rename_i i v rest he
    obtain ⟨h1, h2⟩ := hostWrite_next h
    refine .inr ⟨h1, rest, ?_⟩
    rcases h2 with ⟨rfl, c, hc, hx⟩ | ⟨rfl, ⟨r, hr⟩, rfl⟩ | ⟨hi, rfl⟩
    · exact .inr (.inl ⟨v, c, he, hc, hx⟩)
    · exact .inr (.inr (.inl ⟨v, r, he, hr, rfl⟩))
    · exact .inr (.inr (.inr (.inl ⟨i, v, he, hi, rfl⟩)))
  · rename_i rest he
    exact .inl ⟨rest, he, by simpa using h.symm⟩

end Sys2Proof.Machine
end

