-- ==== Sys2Proof/Tests/Slice0.lean ====
section
/-! SUPPORT. Small tests. Expected values come from spec/95_test_vectors.md, the examples of the rules, or the
encoding tables, each named in the comment; then one witness for the hypotheses of each statement. -/

namespace Sys2Proof.Tests

open Sys2Proof.Machine

/-! ### Well-formedness: each check refuses an ill-formed term (R6). No instruction is ill formed (R83). -/

theorem test_wf_default : Config.defaultParams.legal = true := by decide
theorem test_wf_maxW_multiple : Params.legalMaxW { maxW := 36, maxH := 8, pbufSize := 1 } = false := by decide
theorem test_wf_maxW_low : Params.legalMaxW { maxW := 24, maxH := 8, pbufSize := 1 } = false := by decide
theorem test_wf_maxW_high : Params.legalMaxW { maxW := 65536, maxH := 8, pbufSize := 1 } = false := by decide
theorem test_wf_maxH_multiple : Params.legalMaxH { maxW := 32, maxH := 12, pbufSize := 1 } = false := by decide
theorem test_wf_maxH_low : Params.legalMaxH { maxW := 32, maxH := 0, pbufSize := 1 } = false := by decide
theorem test_wf_maxH_high : Params.legalMaxH { maxW := 32, maxH := 65536, pbufSize := 1 } = false := by decide
theorem test_wf_pbuf_low : Params.legalPbufSize { maxW := 32, maxH := 8, pbufSize := 0 } = false := by decide
theorem test_wf_pbuf_high : Params.legal { maxW := 32, maxH := 8, pbufSize := 4294967296 } = false := by decide
theorem test_wf_instr : (Instr.wellFormed .encStart && Instr.wellFormed .decCommit) = true := by decide

/-! ### Decoding: every word bit by bit from R81, R82 and R86 -/

theorem test_decode_encStart : decode (.cmd 0b00000000000000000000000000000001) = .ok .encStart := by decide
theorem test_decode_decStart : decode (.cmd 0b00000000000000000000000000000010) = .ok .decStart := by decide
theorem test_decode_abort : decode (.cmd 0b00000000000000000000000000000011) = .ok .abort := by decide
theorem test_decode_clear : decode (.cmd 0b00000000000000000000000000000100) = .ok .clear := by decide
theorem test_decode_encLoad : decode (.sel 0b000001) = .ok .encLoad := by decide
theorem test_decode_encMeta : decode (.sel 0b001001) = .ok .encMeta := by decide
theorem test_decode_encData : decode (.sel 0b010001) = .ok .encData := by decide
theorem test_decode_encFinish : decode (.sel 0b011001) = .ok .encFinish := by decide
theorem test_decode_decMeta : decode (.sel 0b000010) = .ok .decMeta := by decide
theorem test_decode_decData : decode (.sel 0b001010) = .ok .decData := by decide
theorem test_decode_decCommit : decode (.sel 0b010010) = .ok .decCommit := by decide

/-- R84: the word 0, an opcode past the table, and an opcode with a 1 in bits 31:8 are illegal. -/
theorem test_decode_illegal :
    [0x00000000, 0x00000005, 0x00000101, 0x80000001].map decodeCmd = List.replicate 4 (.error .illegalCommand) := by
  decide

/-- R86: IDLE, DONE and ERROR have no step; MODE 5 and an encode's PHASE 4 are never held. -/
theorem test_decode_selectors :
    [0x00, 0x03, 0x04].map decodeSel = List.replicate 3 (.error .noEngineStep) ∧
    [0x05, 0x21, 0x1A, 0x08].map decodeSel = List.replicate 4 (.error .neverHeldPair) := by decide

/-- The host's form of a table row's word: a row of 6 bits is one byte. -/
theorem test_decode_table :
    decodeTableWord 32 4 = some .clear ∧ decodeTableWord 8 0x19 = some .encFinish ∧ decodeTableWord 32 0 = none ∧
    decodeTableWord 8 0 = none := by decide

/-! ### Helpers -/

/-- A small instance, configured as the running example of 95_test_vectors.md: 32 x 8, rate 30. -/
def small : State :=
  { State.reset with
    params := { maxW := 64, maxH := 16, pbufSize := 64 }, width := 32, height := 8, rate := 30 }

/-- The running example's payload: byte k is k, 40 bytes. -/
def payload : List Byte := (List.range 40).map (BitVec.ofNat 8)

/-- Eight pixels written leftmost first, as the tables of 95_test_vectors.md write them. -/
def pixels (digits : Nat) : Nat := (List.range 8).foldl (fun n j => n + 2 ^ j * (digits.testBit (7 - j)).toNat) 0

/-- A 32 x 8 frame from its rows of four pixel groups. -/
def picture (rows : List (List Nat)) : Frame :=
  { w := 32, h := 8, pix := BitVec.ofNat 256 (rows.flatten.reverse.foldl (fun n g => 256 * n + pixels g) 0) }

/-- M of 95_test_vectors.md (row MD1): the metadata frame of length 40. -/
def frameM : Frame := picture [[0b00010100, 0, 0, 0]]

/-- DF1 of 95_test_vectors.md. -/
def frameDF1 : Frame :=
  picture
    [[0b00000000, 0b10000000, 0b01000000, 0b11000000], [0b00100000, 0b10100000, 0b01100000, 0b11100000],
     [0b00010000, 0b10010000, 0b01010000, 0b11010000], [0b00110000, 0b10110000, 0b01110000, 0b11110000],
     [0b00001000, 0b10001000, 0b01001000, 0b11001000], [0b00101000, 0b10101000, 0b01101000, 0b11101000],
     [0b00011000, 0b10011000, 0b01011000, 0b11011000], [0b00111000, 0b10111000, 0b01111000, 0b11111000]]

/-- DF2 of 95_test_vectors.md. -/
def frameDF2 : Frame :=
  picture
    [[0b00000100, 0b10000100, 0b01000100, 0b11000100], [0b00100100, 0b10100100, 0b01100100, 0b11100100]]

/-- DF2 with the padding rows 2 to 7 white (vector DE12). -/
def frameDF2White : Frame :=
  picture
    ([[0b00000100, 0b10000100, 0b01000100, 0b11000100], [0b00100100, 0b10100100, 0b01100100, 0b11100100]] ++
      List.replicate 6 [0b11111111, 0b11111111, 0b11111111, 0b11111111])

/-- An encode of the running example about to hand over data frame 2. -/
def midEncode : State :=
  { small with
    mode := 1, phase := 2, length := 40, bpf := 32, fcount := 2, fidx := 2, cursor := 32
    pbuf := cellsFrom 0 payload
    hist := [.srcRead (.bytes payload), .vwBegin 32 8 30 .ok, .vwPut frameM .ok, .vwPut frameDF1 .ok] }

/-- A decode of the running example about to take data frame 2. -/
def midDecode : State :=
  { small with
    mode := 2, phase := 1, length := 40, bpf := 32, fcount := 2, fidx := 2, cursor := 32
    pbuf := cellsFrom 0 (payload.take 32)
    hist := [.vrNext (.frame frameM), .vrNext (.frame frameDF1)] }

/-- The answer is a next state of which the check holds. -/
def answers (o : Out) (check : State → Bool) : Bool :=
  match o with
  | .next t => check t
  | _ => false

/-- What `answers` says, as a statement. -/
theorem answers_next {o : Out} {check : State → Bool} (h : answers o check = true) :
    ∃ t, o = .next t ∧ check t = true := by
  unfold answers at h; split at h
  · exact ⟨_, rfl, h⟩
  · simp at h

/-! ### The datapath (95_test_vectors.md, L2.1 and L2.2) -/

/-- Table FB: pixel groups, leftmost first. -/
theorem test_encodeByte :
    ([0x00, 0xFF, 0x01, 0x80, 0x4B, 0xA5, 0x3C, 0x5A] : List Byte).map (fun b => bitsToNat (encodeByte b)) =
      [0b00000000, 0b11111111, 0b10000000, 0b00000001, 0b11010010, 0b10100101, 0b00111100, 0b01011010].map pixels := by
  decide

/-- R108's example. -/
theorem test_decodeByte : decodeByte [true, true, false, true, false, false, true, false] = 0x4B := by decide

/-- The placement table: pos(W, k) = (c, r). -/
theorem test_pos :
    [pos 32 3, pos 32 4, pos 32 31, pos 1920 239, pos 1920 240, pos 1920 257279] =
      [(3, 0), (0, 1), (3, 7), (239, 0), (0, 1), (239, 1071)] := by decide

/-- placeByte(blank(32, 8), 32, 5, 0xA5): white pixels exactly (8, 1), (10, 1), (13, 1), (15, 1); takeByte at 5, 4, 6. -/
theorem test_placeByte :
    placeByte (blank 32 8) 32 5 0xA5 = picture [[0, 0, 0, 0], [0, 0b10100101, 0, 0]] ∧
    [5, 4, 6].map (takeByte (placeByte (blank 32 8) 32 5 0xA5) 32) = [0xA5, 0x00, 0x00] := by decide

/-- packFrame(32, 8, [0x12, 0x34]) and back. -/
theorem test_packFrame :
    packFrame 32 8 [0x12, 0x34] = picture [[0b01001000, 0b00101100, 0, 0]] ∧
    unpackFrame (packFrame 32 8 [0x12, 0x34]) 32 2 = [0x12, 0x34] := by decide

/-- Table MD: rows MD1, MD2, MD5, MD6. -/
theorem test_encodeMetadata :
    encodeMetadata 40 32 8 = frameM ∧
    encodeMetadata 300000 32 8 = picture [[0b00000111, 0b11001001, 0b00100000, 0b00000000]] ∧
    encodeMetadata 0x80000000 32 8 = picture [[0, 0, 0, 0b00000001]] ∧
    encodeMetadata 0xFFFFFFFF 32 8 = picture [[0b11111111, 0b11111111, 0b11111111, 0b11111111]] := by decide +kernel

/-- Rows MD2, MD5 and MD7: only pixels (0..31, 0) are read. -/
theorem test_decodeMetadata :
    decodeMetadata (picture [[0b00000111, 0b11001001, 0b00100000, 0b00000000]]) = 300000 ∧
    decodeMetadata (picture [[0, 0, 0, 0b00000001]]) = 0x80000000 ∧
    decodeMetadata (picture ([0, 0, 0, 0] :: List.replicate 7 [0b11111111, 0b11111111, 0b11111111, 0b11111111])) = 0 := by
  decide +kernel

/-- Table FC, and R114's corner values. -/
theorem test_ceilDiv :
    [ceilDiv 0 32, ceilDiv 31 32, ceilDiv 32 32, ceilDiv 33 32, ceilDiv 300000 257280, ceilDiv 4294967295 32] =
      [0, 1, 1, 2, 2, 134217728] := by decide

/-- R202's example, and the bounds of R100. -/
theorem test_validGeom :
    bytesPerFrame 1920 1072 = 257280 ∧ validGeom Config.defaultParams 1920 1072 = true ∧
    [(1921, 1072), (24, 8), (32, 4), (65536, 8)].map (fun g => validGeom Config.defaultParams g.1 g.2) =
      [false, false, false, false] := by decide

/-! ### Steps: at most two for each instruction, one Host or Engine turn each (95_test_vectors.md, L2.3 to L2.5) -/

/-- The state with this turn next. -/
def turn (s : State) (x : Turn) : State := { s with sched := [x] }

/-- CM4: STATUS = 0x00100304, no event. -/
theorem test_encStart_geometry :
    answers (step (turn State.reset (.write 0 1))) (fun t => t.status == 0x00100304 && t.hist == []) = true := by decide

/-- CM9: STATUS = 0x00000001, BPF = 40. -/
theorem test_encStart :
    answers (step (turn { small with width := 40 } (.write 0 1)))
      (fun t => t.status == 0x00000001 && t.bpf == 40) = true := by decide

/-- CM10: STATUS = 0x00080002. -/
theorem test_decStart :
    answers (step (turn State.reset (.write 0 2))) (fun t => t.status == 0x00080002 && t.hist == []) = true := by decide

/-- CM12: refused while ENC, LOAD runs. -/
theorem test_decStart_refused :
    answers (step (turn { small with mode := 1 } (.write 0 2))) (fun t => t.status == 0x00020001) = true := by decide

/-- CM16: the open writer is discarded; L3.4: FIDX and CURSOR stay. -/
theorem test_abort_encode :
    answers (step (turn midEncode (.write 0 3)))
      (fun t => t.status == 0x00101204 && t.hist == midEncode.hist ++ [.vwDiscard] && t.fidx == 2 && t.cursor == 32)
      = true := by decide +kernel

/-- CM18: nothing is emitted in COMMIT. -/
theorem test_abort_commit :
    answers (step (turn { small with mode := 2, phase := 2, fidx := 1 } (.write 0 3)))
      (fun t => t.status == 0x00101204 && t.hist == []) = true := by decide

/-- CM19: CLEAR after an error keeps the results. -/
theorem test_clear :
    answers (step (turn { midDecode with mode := 4, phase := 0, errcode := 0x06 } (.write 0 4)))
      (fun t => t.status == 0 && t.length == 40 && t.fidx == 2 && t.cursor == 32) = true := by decide

/-- CM11: refused while an encode runs. -/
theorem test_clear_refused :
    answers (step (turn { small with mode := 1 } (.write 0 4))) (fun t => t.status == 0x00020001) = true := by decide

/-- CM3: an illegal word sets LASTCMD only. -/
theorem test_illegal_command :
    answers (step (turn State.reset (.write 0 0x00000101))) (fun t => t.status == 0x00010000) = true := by decide

/-- CM24 and CM21: WIDTH takes its low 16 bits, and nothing while an encode runs. -/
theorem test_write_width :
    answers (step (turn State.reset (.write 2 0x00120020))) (fun t => t.width == 0x20) = true ∧
    answers (step (turn midEncode (.write 2 64))) (fun t => t.width == 32) = true := by decide

/-- CM22, CM23, L3.4: CMD and reserved words read 0, STATUS shows VW_OPEN. -/
theorem test_reads :
    [0, 17, 1].map (fun i => answers (step (turn midEncode (.read i))) (fun t => t.reads == [0])) = [true, true, false] ∧
    answers (step (turn midEncode (.read 1))) (fun t => t.reads == [0x00040011]) = true := by decide

/-- R260, R261: a reset in the middle of an encode emits nothing. -/
theorem test_reset :
    answers (step (turn midEncode .reset))
      (fun t => t.status == 0 && t.hist == [] && t.pbuf == [] && t.width == 0) = true := by decide

/-- The Engine's state in an encode step of the running example. -/
def encAt (phase : BitVec 3) : State := { small with mode := 1, phase := phase, bpf := 32 }

/-- EN4: LOAD with PBUF_SIZE = 40 succeeds; STATUS 0x00000009. -/
theorem test_encLoad :
    answers (step { encAt 0 with params := { maxW := 64, maxH := 16, pbufSize := 40 }, srcIn := [.bytes payload] })
      (fun t => t.status == 0x00000009 && t.length == 40 && t.fcount == 2 && t.pbuf.readBytes 0 40 == some payload)
      = true := by decide +kernel

/-- EN3: PBUF_SIZE = 16; STATUS 0x00101004. -/
theorem test_encLoad_large :
    answers (step { encAt 0 with params := { maxW := 64, maxH := 16, pbufSize := 16 }, srcIn := [.bytes payload] })
      (fun t => t.status == 0x00101004 && t.length == 0 && t.pbuf == []) = true := by decide

/-- L3.1: ENC_META gives STATUS 0x00040011 and the events BEGIN, PUT(M). -/
theorem test_encMeta :
    answers (step { encAt 1 with length := 40, fcount := 2, vwIn := [.ok, .ok] })
      (fun t => t.status == 0x00040011 && t.fidx == 1 && t.hist == [.vwBegin 32 8 30 .ok, .vwPut frameM .ok])
      = true := by decide +kernel

/-- EN6: the PUT of M answered ERR. -/
theorem test_encMeta_put :
    answers (step { encAt 1 with length := 40, fcount := 2, vwIn := [.ok, .err] })
      (fun t => t.status == 0x00100404 && t.fidx == 0 &&
        t.hist == [.vwBegin 32 8 30 .ok, .vwPut frameM .err, .vwDiscard]) = true := by decide +kernel

/-- L3.1: data frame 2 is DF2, and STATUS 0x00040019 after it. -/
theorem test_encData :
    answers (step { midEncode with vwIn := [.ok] })
      (fun t => t.status == 0x00040019 && t.fidx == 3 && t.cursor == 40 && t.hist.getLast? == some (.vwPut frameDF2 .ok))
      = true := by decide +kernel

/-- DF1 of L2.4, and R146: STATUS stays 0x00040011 after a data frame that is not the last. -/
theorem test_encData_first :
    answers (step { midEncode with cursor := 0, fidx := 1, vwIn := [.ok] })
      (fun t => t.status == 0x00040011 && t.cursor == 32 && t.hist.getLast? == some (.vwPut frameDF1 .ok))
      = true := by decide +kernel

/-- EN9: STATUS 0x00100003. -/
theorem test_encFinish :
    answers (step { encAt 3 with fidx := 3, vwIn := [.ok] })
      (fun t => t.status == 0x00100003 && t.hist == [.vwFinish .ok] && t.fidx == 3) = true := by decide

/-- EN8: FINISH answered ERR. -/
theorem test_encFinish_error :
    answers (step { encAt 3 with fidx := 3, cursor := 40, vwIn := [.err] })
      (fun t => t.status == 0x00100404 && t.hist == [.vwFinish .err, .vwDiscard] && t.cursor == 40) = true := by decide

/-- L3.2: DEC_META on M gives STATUS 0x0008000A; WIDTH and HEIGHT come from the frame. -/
theorem test_decMeta :
    answers (step { small with mode := 2, width := 5, height := 0, vrIn := [.frame frameM] })
      (fun t => t.status == 0x0008000A && t.width == 32 && t.height == 8 && t.length == 40 && t.bpf == 32 &&
        t.fcount == 2 && t.fidx == 1) = true := by decide +kernel

/-- DE9: a header of 0 releases the reader and goes to COMMIT. -/
theorem test_decMeta_empty :
    answers (step { small with mode := 2, vrIn := [.frame (blank 32 8)] })
      (fun t => t.status == 0x00000012 && t.length == 0 && t.fcount == 0 && t.fidx == 1 &&
        t.hist == [.vrNext (.frame (blank 32 8)), .vrRelease]) = true := by decide +kernel

/-- DE8 and DE12: the last data frame, whose padding is not read; STATUS 0x00000012. -/
theorem test_decData :
    answers (step { midDecode with vrIn := [.frame frameDF2White, .eos] })
      (fun t => t.status == 0x00000012 && t.cursor == 40 && t.fidx == 3 && t.pbuf.readBytes 0 40 == some payload &&
        t.hist.getLast? == some .vrRelease && t.vrIn == [.eos]) = true := by decide +kernel

/-- DE5: the stream ends early. -/
theorem test_decData_short :
    answers (step { midDecode with vrIn := [.eos] })
      (fun t => t.status == 0x00100604 && t.length == 40 && t.cursor == 32 && t.fidx == 2 &&
        t.hist == midDecode.hist ++ [.vrNext .eos, .vrRelease]) = true := by decide +kernel

/-- A decode of the running example about to commit. -/
def atCommit : State :=
  { midDecode with phase := 2, fidx := 3, cursor := 40, pbuf := cellsFrom 0 payload }

/-- DE8: the whole payload, once; STATUS 0x00100003. -/
theorem test_decCommit :
    answers (step { atCommit with snkIn := [.ok] })
      (fun t => t.status == 0x00100003 && t.hist.getLast? == some (.snkCommit payload .ok) && t.cursor == 40)
      = true := by decide +kernel

/-- DE10: SNK answers ERR; STATUS 0x00101104. -/
theorem test_decCommit_error :
    answers (step { atCommit with snkIn := [.err] })
      (fun t => t.status == 0x00101104 && t.hist.getLast? == some (.snkCommit payload .err) && t.cursor == 40)
      = true := by decide +kernel

/-- The host's placement: the step after it runs the word as the first instruction after reset, for a command and
for a selector. -/
theorem test_withFetchWord :
    answers (step (State.reset.withFetchWord 32 2)) (fun t => t.status == 0x00080002) = true ∧
    answers (step (State.reset.withFetchWord 8 0x19)) (fun t => t.hist == [.vwFinish .err, .vwDiscard]) = true := by decide

/-! ### Witnesses: for each statement with hypotheses, states and operands that meet them, clause by clause -/

/-- The small state in this MODE and PHASE. -/
def at' (mode phase : BitVec 3) : State := { small with mode := mode, phase := phase }

/-- No never-held value, and this turn (alone) is next. -/
def ready (s : State) (x : Turn) : Bool := (turn s x).heldFault == none && (turn s x).sched == [x]

theorem witness_CommandWordsOfTheTable : decodeCmd 0x00000004 = .ok .clear := by decide

theorem witness_EncodedInstructionDecodes : decode (.sel 0b011001) = .ok .encFinish := by decide

theorem witness_EngineStepSelection :
    EngineMoves (at' 1 0) [] ∧ EngineMoves (turn (at' 1 0) .engine) [] ∧
    [at' 1 0, at' 1 1, at' 1 2, at' 1 3, at' 2 0, at' 2 1, at' 2 2, at' 0 0, at' 3 0, at' 4 0].map
      (fun s => (s.selector, s.heldFault)) =
      ([0x01, 0x09, 0x11, 0x19, 0x02, 0x0A, 0x12, 0x00, 0x03, 0x04] : List Selector).map (fun x => (x, none)) ∧
    [at' 1 4, at' 2 3, at' 0 1, at' 7 7].map State.selector = [0x21, 0x1A, 0x08, 0x3F] :=
  ⟨.inr ⟨rfl, rfl⟩, .inl rfl, by decide, by decide⟩

theorem witness_CommandWriteRunsInstruction :
    ready midEncode (.write 0 3) = true ∧ decode (.cmd 3) = .ok .abort ∧ Instr.abort.wellFormed = true := by decide

theorem witness_EngineTurnRunsInstruction :
    midEncode.heldFault = none ∧ EngineMoves midEncode [] ∧ decode (.sel midEncode.selector) = .ok .encData ∧
    Instr.encData.wellFormed = true := ⟨by decide, .inr ⟨rfl, rfl⟩, by decide, by decide⟩

theorem witness_RegisterReads :
    ([0, 1, 2, 3, 4, 5, 6, 7, 8, 9, 10, 63] : List Index).all (fun i => ready midEncode (.read i)) = true ∧
    (10 : Index).toNat = 10 ∧ (63 : Index).toNat = 63 := by decide

theorem witness_RegisterWrites :
    ([0, 3, 4] : List (BitVec 3)).all (fun m =>
      ([1, 2, 3, 4, 5, 63] : List Index).all fun i => ready (at' m 0) (.write i 7) && (at' m 0).mode == m) = true ∧
    ([1, 2] : List (BitVec 3)).all (fun m =>
      ([1, 2, 3, 4, 5, 63] : List Index).all fun i => ready (at' m 0) (.write i 7) && (at' m 0).mode == m) = true ∧
    ready midDecode (.write 0 4) = true ∧ decodeCmd 4 = .ok .clear ∧ ready midDecode (.write 0 5) = true ∧
    decodeCmd 5 = .error .illegalCommand := by decide

theorem witness_ReservedWordsInert :
    ready midEncode (.read 10) = true ∧ ready midEncode (.read 63) = true ∧ ready midEncode (.write 10 1) = true ∧
    ready midEncode (.write 63 1) = true := by decide

theorem witness_IllegalCommandWord :
    ready midEncode (.write 0 0) = true ∧ ready midDecode (.write 0 5) = true ∧
    (0 : Word) ∉ [0x00000001, 0x00000002, 0x00000003, (0x00000004 : Word)] ∧
    (5 : Word) ∉ [0x00000001, 0x00000002, 0x00000003, (0x00000004 : Word)] := by decide

theorem witness_NeverHeldValuesFault :
    (at' 5 0).resets = false ∧ 5 ≤ (at' 5 0).mode.toNat ∧
    ((at' 1 4).mode = 1 ∧ 4 ≤ (at' 1 4).phase.toNat) ∧ ((at' 2 3).mode = 2 ∧ 3 ≤ (at' 2 3).phase.toNat) ∧
    ((at' 0 1).mode ≠ 1 ∧ (at' 0 1).mode ≠ 2 ∧ (at' 0 1).phase ≠ 0) ∧
    (pairHeld 4 0 = true ∧ (0x07 : BitVec 8) ∉ [0x00, 0x01, 0x02, 0x03, 0x04, 0x05, 0x06, 0x10, 0x11, 0x12, 0x13]) ∧
    (pairHeld 0 0 = true ∧ errcodeHeld 0x13 = true ∧ ({ small with lastcmd := 3 } : State).lastcmd = 3) := by decide

theorem witness_ResetFromAnyState : (turn midEncode .reset).sched = .reset :: [] := rfl

theorem witness_CommandsRefusedWhileRunning : midEncode.mode = 1 ∧ midDecode.mode = 2 := by decide

theorem witness_EncStartByItsRule :
    ((at' 0 0).mode = 0 ∧ (at' 3 0).mode = 3 ∧ (at' 4 0).mode = 4) ∧
    ¬LegalGeometry small.params 24 8 ∧ ¬LegalGeometry small.params 72 8 ∧ ¬LegalGeometry small.params 32 0 ∧
    LegalGeometry small.params small.width.toNat small.height.toNat ∧ LegalGeometry small.params 64 16 ∧
    ({ small with rate := 0 } : State).rate = 0 ∧ small.rate ≠ 0 := by decide

theorem witness_DecStartByItsRule : (at' 0 0).mode = 0 ∧ (at' 3 0).mode = 3 ∧ (at' 4 0).mode = 4 := by decide

theorem witness_AbortByItsRule :
    ((at' 1 2).mode = 1 ∧ (at' 1 2).phase = 2) ∧ ((at' 1 3).mode = 1 ∧ (at' 1 3).phase = 3) ∧
    ((at' 1 1).mode = 1 ∧ ¬((at' 1 1).phase = 2 ∨ (at' 1 1).phase = 3)) ∧
    ((at' 2 0).mode = 2 ∧ (at' 2 0).phase = 0) ∧ ((at' 2 1).mode = 2 ∧ (at' 2 1).phase = 1) ∧
    ((at' 2 2).mode = 2 ∧ ¬((at' 2 2).phase = 0 ∨ (at' 2 2).phase = 1)) ∧
    ((at' 0 0).mode = 0 ∧ (at' 3 0).mode = 3 ∧ (at' 4 0).mode = 4) := by decide

theorem witness_ClearByItsRule :
    (at' 3 0).mode = 3 ∧ (at' 4 0).mode = 4 ∧ (at' 0 0).mode = 0 ∧ (at' 1 0).mode = 1 ∧ (at' 2 0).mode = 2 := by decide

theorem witness_CommandFrames :
    [exec .encStart small, exec .decStart small, exec .abort midEncode, exec .clear (at' 3 0)].map
      (fun o => answers o fun _ => true) = [true, true, true, true] := by decide

theorem witness_EncLoadByItsRule :
    ({ small with srcIn := [.err] } : State).srcAnswer = .err ∧
    ({ small with srcIn := [.bytes []] } : State).srcAnswer = .bytes [] ∧
    ({ small with srcIn := [.bytes (List.replicate 65 0)] } : State).srcAnswer = .bytes (List.replicate 65 0) ∧
    ({ small with srcIn := [.bytes (List.replicate 64 0)] } : State).srcAnswer = .bytes (List.replicate 64 0) ∧
    small.params.pbufSize < (List.replicate 65 (0 : Byte)).length ∧
    (List.replicate 64 (0 : Byte)).length = small.params.pbufSize ∧ List.replicate 64 (0 : Byte) ≠ [] := by
  decide +kernel

theorem witness_EncMetaByItsRule :
    ({ small with vwIn := [.err] } : State).vwAnswer = .err ∧
    ({ small with vwIn := [.ok, .err] } : State).vwAnswer = .ok ∧
    ({ small with vwIn := [.ok, .err] } : State).vwTaken.vwAnswer = .err ∧
    ({ small with vwIn := [.ok, .ok] } : State).vwTaken.vwAnswer = .ok ∧
    32 ≤ small.width.toNat ∧ 1 ≤ ({ small with height := 1 } : State).height.toNat ∧
    ({ State.reset with vwIn := [.ok] } : State).vwAnswer = .ok ∧
    ¬(32 ≤ State.reset.width.toNat ∧ 1 ≤ State.reset.height.toNat) := by decide

theorem witness_EncDataByItsRule :
    8 = min midEncode.bpf.toNat (midEncode.length.toNat - midEncode.cursor.toNat) ∧
    midEncode.cursor.toNat + 8 ≤ midEncode.params.pbufSize ∧
    midEncode.pbuf.readBytes midEncode.cursor.toNat 8 = some (payload.drop 32) ∧
    midEncode.width.toNat % 8 = 0 ∧ 8 ≤ midEncode.width.toNat * midEncode.height.toNat / 8 ∧
    ({ midEncode with vwIn := [.err] } : State).vwAnswer = .err ∧
    ({ midEncode with vwIn := [.ok] } : State).vwAnswer = .ok := by decide +kernel

theorem witness_EncFinishByItsRule :
    ({ encAt 3 with vwIn := [.err] } : State).vwAnswer = .err ∧ ({ encAt 3 with vwIn := [.ok] } : State).vwAnswer = .ok := by
  decide

theorem witness_EncoderFrames :
    [exec .encLoad { encAt 0 with srcIn := [.bytes payload] }, exec .encMeta { encAt 1 with vwIn := [.ok, .ok] },
      exec .encData { midEncode with vwIn := [.ok] }, exec .encFinish { encAt 3 with vwIn := [.ok] }].map
      (fun o => answers o fun _ => true) = [true, true, true, true] ∧
    ({ encAt 0 with srcIn := [.bytes payload] } : State).srcAnswer = .bytes payload ∧ midEncode.fb = none := by
  decide +kernel

theorem witness_DecMetaByItsRule :
    ({ small with vrIn := [.eos] } : State).vrAnswer = .eos ∧ ({ small with vrIn := [.err] } : State).vrAnswer = .err ∧
    ({ small with vrIn := [.frame frameM] } : State).vrAnswer = .frame frameM ∧
    ¬LegalGeometry small.params (blank 24 8).w (blank 24 8).h ∧
    (LegalGeometry small.params frameDF2White.w frameDF2White.h ∧
      small.params.pbufSize < (decodeMetadata frameDF2White).toNat) ∧
    (LegalGeometry small.params frameM.w frameM.h ∧ (decodeMetadata frameM).toNat = 40 ∧ decodeMetadata frameM ≠ 0) ∧
    (decodeMetadata (encodeMetadata 64 32 8)).toNat = small.params.pbufSize ∧
    (LegalGeometry small.params (blank 32 8).w (blank 32 8).h ∧ decodeMetadata (blank 32 8) = 0) := by decide +kernel

theorem witness_DecDataByItsRule :
    8 = min midDecode.bpf.toNat (midDecode.length.toNat - midDecode.cursor.toNat) ∧
    ({ midDecode with vrIn := [.eos] } : State).vrAnswer = .eos ∧
    ({ midDecode with vrIn := [.err] } : State).vrAnswer = .err ∧
    ({ midDecode with vrIn := [.frame frameDF2] } : State).vrAnswer = .frame frameDF2 ∧
    ¬((blank 40 8).w = midDecode.width.toNat ∧ (blank 40 8).h = midDecode.height.toNat) ∧
    (frameDF2.w = midDecode.width.toNat ∧ frameDF2.h = midDecode.height.toNat ∧ frameDF2.w % 8 = 0 ∧
      8 ≤ frameDF2.w * frameDF2.h / 8 ∧ midDecode.cursor.toNat + 8 ≤ midDecode.params.pbufSize ∧
      midDecode.cursor.toNat + 8 = midDecode.length.toNat) ∧
    (32 = min midDecode.bpf.toNat (midDecode.length.toNat - ({ midDecode with cursor := 0 } : State).cursor.toNat) ∧
      ({ midDecode with cursor := 0 } : State).cursor.toNat + 32 ≠ midDecode.length.toNat) := by decide +kernel

theorem witness_DecCommitByItsRule :
    atCommit.length.toNat ≤ atCommit.params.pbufSize ∧ atCommit.pbuf.readBytes 0 atCommit.length.toNat = some payload ∧
    ({ atCommit with snkIn := [.err] } : State).snkAnswer = .err ∧
    ({ atCommit with snkIn := [.ok] } : State).snkAnswer = .ok ∧
    State.reset.pbuf.readBytes 0 State.reset.length.toNat = some [] := by decide +kernel

theorem witness_DecoderFrames :
    [exec .decMeta { small with vrIn := [.frame frameM] }, exec .decData { midDecode with vrIn := [.frame frameDF2] },
      exec .decCommit { atCommit with snkIn := [.ok] }].map (fun o => answers o fun _ => true) = [true, true, true] ∧
    answers (exec .decData { midDecode with vrIn := [.eos] }) (fun t => t.mode == 4) = true ∧ midDecode.mode ≠ 4 ∧
    midDecode.fb = none := by decide +kernel

theorem witness_FailingStepIsPrecise :
    decodeSel midDecode.selector = .ok .decData ∧ midDecode.fb = none ∧
    answers (exec .decData { midDecode with vrIn := [.eos] }) (fun t => t.mode == 4) = true := by decide +kernel

theorem witness_ByteCodecIsBijection : (7 < 8) ∧ [true, true, false, true, false, false, true, false].length = 8 := by decide

theorem witness_BytePositionsAreBijection :
    32 % 8 = 0 ∧ 8 ≤ 32 ∧ 31 < bytesPerFrame 32 8 ∧ 0 < bytesPerFrame 32 8 ∧ 3 < 32 / 8 ∧ 7 < 8 ∧
    pos 32 31 = (3, 7) := by decide

theorem witness_PlaceByteSetsItsPixels :
    (blank 32 8).w % 8 = 0 ∧ 8 ≤ (blank 32 8).w ∧ 31 < bytesPerFrame (blank 32 8).w (blank 32 8).h ∧
    31 < (blank 32 8).w ∧ 7 < (blank 32 8).h := by decide

theorem witness_PackedFramePixels :
    32 % 8 = 0 ∧ 8 ≤ 32 ∧ (List.replicate 32 (0xA5 : Byte)).length ≤ bytesPerFrame 32 8 ∧ 31 < 32 ∧ 7 < 8 := by decide

theorem witness_UnpackInvertsPack :
    32 % 8 = 0 ∧ 8 ≤ 32 ∧ (List.replicate 32 (0xA5 : Byte)).length ≤ bytesPerFrame 32 8 := by decide

theorem witness_UnpackIgnoresPadding :
    frameDF2.w % 8 = 0 ∧ 8 ≤ frameDF2.w ∧ frameDF2White.w = frameDF2.w ∧ frameDF2White.h = frameDF2.h ∧
    8 ≤ bytesPerFrame frameDF2.w frameDF2.h ∧ frameDF2 ≠ frameDF2White ∧
    (∀ x, x < 32 → ∀ y, y < 8 → y * (32 / 8) + x / 8 < 8 → getPix frameDF2 x y = getPix frameDF2White x y) := by
  decide +kernel

theorem witness_MetadataFramePixels : (32 ≤ 32 ∧ 1 ≤ 1) ∧ (32 ≤ 1920 ∧ 1 ≤ 1072) := by decide

theorem witness_MetadataRoundTrip :
    (32 ≤ 32 ∧ 1 ≤ 1) ∧
    (∀ x, x < 32 → getPix (picture [[0b00000100, 0b10000100, 0b01000100, 0b11000100]]) x 0 = getPix frameDF2 x 0) := by
  decide +kernel

theorem witness_HeaderIsLittleEndianBytes : 32 % 8 = 0 ∧ 32 ≤ 32 ∧ 1 ≤ 8 := by decide

theorem witness_FrameCountLaw : 1 ≤ 32 ∧ 1 ≤ 33 ∧ (1 ≤ 1 ∧ 1 < ceilDiv 33 32) := by decide

theorem witness_ComputedValuesFit :
    Config.defaultParams.legal = true ∧ LegalGeometry Config.defaultParams 65528 65528 ∧
    LegalGeometry Config.defaultParams 32 8 ∧ 4294967295 ≤ Config.defaultParams.pbufSize ∧
    (1 ≤ 2 ∧ 2 ≤ ceilDiv 33 (bytesPerFrame 32 8)) := by decide

theorem witness_MemWriteByItsRule :
    62 + ([1, 2] : List Byte).length ≤ small.params.pbufSize ∧ 1 < ([1, 2] : List Byte).length ∧ small.pbuf.wf := by
  decide

theorem witness_MemReadByItsRule :
    (32 + 8 ≤ midEncode.params.pbufSize ∧ ∀ k, k < 8 → (midEncode.pbuf.read (32 + k)).isSome = true) ∧
    (32 + 9 ≤ midEncode.params.pbufSize ∧ 8 < 9 ∧ midEncode.pbuf.read (32 + 8) = none) ∧
    midEncode.params.pbufSize < 32 + 33 := by decide +kernel

theorem witness_BrokenPreconditionsFault :
    5 ≤ (at' 5 0).mode.toNat ∧
    (({ small with bpf := 9, length := 65, cursor := 56 } : State).params.pbufSize <
      ({ small with bpf := 9, length := 65, cursor := 56 } : State).cursor.toNat +
        ({ small with bpf := 9, length := 65, cursor := 56 } : State).chunk) ∧
    (({ small with bpf := 1, length := 1 } : State).cursor.toNat + ({ small with bpf := 1, length := 1 } : State).chunk
        ≤ small.params.pbufSize ∧ 0 < ({ small with bpf := 1, length := 1 } : State).chunk ∧
      small.pbuf.read (({ small with bpf := 1, length := 1 } : State).cursor.toNat + 0) = none) ∧
    (∀ k, k < ({ midEncode with height := 1 } : State).chunk →
      (midEncode.pbuf.read (midEncode.cursor.toNat + k)).isSome = true) ∧
    bytesInFrame midEncode.width.toNat ({ midEncode with height := 1 } : State).height.toNat
      ({ midEncode with height := 1 } : State).chunk = false := by decide +kernel

theorem witness_BrokenPreconditionsFault_decode :
    ({ midDecode with vrIn := [.frame (blank 32 1)], height := 1 } : State).vrAnswer = .frame (blank 32 1) ∧
    bytesInFrame (blank 32 1).w (blank 32 1).h midDecode.chunk = false ∧
    ({ midDecode with vrIn := [.frame frameDF2] } : State).vrAnswer = .frame frameDF2 ∧
    bytesInFrame frameDF2.w frameDF2.h midDecode.chunk = true ∧
    ({ midDecode with params := { maxW := 64, maxH := 16, pbufSize := 39 } } : State).params.pbufSize <
      midDecode.cursor.toNat + midDecode.chunk ∧
    ({ small with length := 65 } : State).params.pbufSize < ({ small with length := 65 } : State).length.toNat ∧
    (({ small with length := 1 } : State).length.toNat ≤ small.params.pbufSize ∧
      0 < ({ small with length := 1 } : State).length.toNat ∧ small.pbuf.read 0 = none) := by decide +kernel

/-! ### Witnesses for the statements over the invariants -/

theorem small_inv : Inv small where
  params_legal := by decide
  held := by decide
  errcode_iff := by decide
  fb_none := rfl
  pbuf_wf := by decide
  pbuf_range := by decide
  length_le := by decide
  enc_rate h := absurd h (by decide)
  enc_latched h := absurd h (by decide)
  enc_load h := absurd h (by decide)
  enc_meta h := absurd h (by decide)
  enc_data h := absurd h (by decide)
  enc_finish h := absurd h (by decide)
  dec_meta h := absurd h (by decide)
  dec_data h := absurd h (by decide)
  dec_commit h := absurd h (by decide)
  done h := absurd h (by decide)

theorem midEncode_inv : Inv { midEncode with vwIn := [.ok] } where
  params_legal := by decide
  held := by decide
  errcode_iff := by decide
  fb_none := rfl
  pbuf_wf := cellsFrom_wf 0 payload
  pbuf_range c hc := Nat.lt_of_lt_of_le (mem_cellsFrom hc).2 (by decide)
  length_le := by decide
  enc_rate _ := by decide
  enc_latched _ := by unfold Latched; decide
  enc_load _ h := absurd h (by decide)
  enc_meta _ h := absurd h (by decide)
  enc_data _ _ := ⟨by unfold Counted; decide, by unfold AtData; decide, payload, rfl, by decide +kernel, by decide +kernel⟩
  enc_finish _ h := absurd h (by decide)
  dec_meta h := absurd h (by decide)
  dec_data h := absurd h (by decide)
  dec_commit h := absurd h (by decide)
  done h := absurd h (by decide)

theorem midDecode_inv : Inv { midDecode with vrIn := [.frame frameDF2] } where
  params_legal := by decide
  held := by decide
  errcode_iff := by decide
  fb_none := rfl
  pbuf_wf := cellsFrom_wf 0 (payload.take 32)
  pbuf_range c hc := Nat.lt_of_lt_of_le (mem_cellsFrom hc).2 (by decide)
  length_le := by decide
  enc_rate h := absurd h (by decide)
  enc_latched h := absurd h (by decide)
  enc_load h := absurd h (by decide)
  enc_meta h := absurd h (by decide)
  enc_data h := absurd h (by decide)
  enc_finish h := absurd h (by decide)
  dec_meta _ h := absurd h (by decide)
  dec_data _ _ := ⟨by unfold Latched; decide, by unfold Counted; decide, by unfold AtData; decide,
    by unfold PbufHolds; decide +kernel⟩
  dec_commit _ h := absurd h (by decide)
  done h := absurd h (by decide)

theorem atCommit_inv : Inv { atCommit with snkIn := [.ok] } where
  params_legal := by decide
  held := by decide
  errcode_iff := by decide
  fb_none := rfl
  pbuf_wf := cellsFrom_wf 0 payload
  pbuf_range c hc := Nat.lt_of_lt_of_le (mem_cellsFrom hc).2 (by decide)
  length_le := by decide
  enc_rate h := absurd h (by decide)
  enc_latched h := absurd h (by decide)
  enc_load h := absurd h (by decide)
  enc_meta h := absurd h (by decide)
  enc_data h := absurd h (by decide)
  enc_finish h := absurd h (by decide)
  dec_meta _ h := absurd h (by decide)
  dec_data _ h := absurd h (by decide)
  dec_commit _ _ := ⟨by unfold Latched; decide, by unfold Counted; decide, by unfold AtEnd; decide,
    by unfold PbufHolds; decide +kernel⟩
  done h := absurd h (by decide)

/-- An encode of the running example that is DONE. -/
theorem encodeDone_inv : Inv { midEncode with mode := 3, phase := 0, fidx := 3, cursor := 40 } where
  params_legal := by decide
  held := by decide
  errcode_iff := by decide
  fb_none := rfl
  pbuf_wf := cellsFrom_wf 0 payload
  pbuf_range c hc := Nat.lt_of_lt_of_le (mem_cellsFrom hc).2 (by decide)
  length_le := by decide
  enc_rate h := absurd h (by decide)
  enc_latched h := absurd h (by decide)
  enc_load h := absurd h (by decide)
  enc_meta h := absurd h (by decide)
  enc_data h := absurd h (by decide)
  enc_finish h := absurd h (by decide)
  dec_meta h := absurd h (by decide)
  dec_data h := absurd h (by decide)
  dec_commit h := absurd h (by decide)
  done _ := ⟨by unfold Counted; decide, by unfold AtEnd; decide⟩

/-- The second half: an encode, a decode and a finished operation, the last with FIDX = n + 1 and CURSOR = L. -/
theorem witness_ComputedValuesFit_state :
    (Inv { midEncode with vwIn := [.ok] } ∧ midEncode.mode = 1) ∧
    (Inv { atCommit with snkIn := [.ok] } ∧ atCommit.mode = 2) ∧
    (Inv { midEncode with mode := 3, phase := 0, fidx := 3, cursor := 40 } ∧
      ({ midEncode with mode := 3, phase := 0, fidx := 3, cursor := 40 } : State).mode = 3) :=
  ⟨⟨midEncode_inv, rfl⟩, ⟨atCommit_inv, rfl⟩, ⟨encodeDone_inv, rfl⟩⟩

theorem witness_StepKeepsInvariants :
    Inv { midEncode with vwIn := [.ok] } ∧ ∃ t, step { midEncode with vwIn := [.ok] } = .next t :=
  ⟨midEncode_inv, (answers_next (check := fun _ => true) (by decide +kernel)).imp fun _ h => h.1⟩

theorem witness_InvariantsExcludeStops : Inv { midDecode with vrIn := [.frame frameDF2] } := midDecode_inv

theorem witness_StepKeepsWriterOrder :
    Inv { midEncode with vwIn := [.ok] } ∧ WriterInOrder { midEncode with vwIn := [.ok] } ∧
    ∃ t, step { midEncode with vwIn := [.ok] } = .next t :=
  ⟨midEncode_inv, by unfold WriterInOrder; decide +kernel,
    (answers_next (check := fun _ => true) (by decide +kernel)).imp fun _ h => h.1⟩

theorem witness_StepKeepsReaderOrder :
    Inv { midDecode with vrIn := [.frame frameDF2] } ∧ ReaderInOrder { midDecode with vrIn := [.frame frameDF2] } ∧
    ∃ t, step { midDecode with vrIn := [.frame frameDF2] } = .next t :=
  ⟨midDecode_inv, by unfold ReaderInOrder; decide +kernel,
    (answers_next (check := fun _ => true) (by decide +kernel)).imp fun _ h => h.1⟩

/-- The reader is given up by this step, and by an ABORT; it was not held in an encode. -/
theorem witness_ReaderReleasedExactlyOnce :
    ({ midDecode with vrIn := [.frame frameDF2] } : State).resets = false ∧ midDecode.vrHeld = true ∧
    answers (step { midDecode with vrIn := [.frame frameDF2] }) (fun t => !t.vrHeld) = true ∧
    answers (step (turn midDecode (.write 0 3))) (fun t => !t.vrHeld) = true ∧
    midEncode.vrHeld = false ∧ answers (step { midEncode with vwIn := [.ok] }) (fun _ => true) = true := by
  decide +kernel

theorem witness_SuccessOnlyAtDone :
    Inv { atCommit with snkIn := [.ok] } ∧ ({ atCommit with snkIn := [.ok] } : State).resets = false ∧
    ∃ t, step { atCommit with snkIn := [.ok] } = .next t ∧ (t.mode == 3) = true :=
  ⟨atCommit_inv, by decide, answers_next (by decide +kernel)⟩

theorem witness_HistoryOnlyGrows :
    midEncode.resets = false ∧ ∃ t, step { midEncode with vwIn := [.err] } = .next t ∧ (t.mode == 4) = true :=
  ⟨by decide, answers_next (by decide +kernel)⟩

theorem witness_ParametersAndFormKept :
    midDecode.pbuf.wf ∧ ∃ t, step { midDecode with vrIn := [.frame frameDF2] } = .next t ∧ (t.cursor == 40) = true :=
  ⟨cellsFrom_wf 0 _, answers_next (by decide +kernel)⟩

/-- An engine step of a decode, an ABORT within an encode, and an Engine's turn that passes. -/
theorem witness_CursorNeverDecreases :
    (Inv { midDecode with vrIn := [.frame frameDF2] } ∧
      ({ midDecode with vrIn := [.frame frameDF2] } : State).resets = false ∧ midDecode.mode = 2 ∧
      ∃ t, step { midDecode with vrIn := [.frame frameDF2] } = .next t ∧ (t.cursor == 40) = true) ∧
    (Inv (turn midEncode (.write 0 3)) ∧ (turn midEncode (.write 0 3)).resets = false ∧
      (turn midEncode (.write 0 3)).mode = 1 ∧
      ∃ t, step (turn midEncode (.write 0 3)) = .next t ∧ (t.mode == 4) = true) ∧
    (Inv small ∧ small.resets = false ∧ EngineMoves small [] ∧ ∃ t, step small = .next t ∧ (t.mode == 0) = true) :=
  ⟨⟨midDecode_inv, rfl, rfl, answers_next (by decide +kernel)⟩,
    ⟨{ midEncode_inv with }, rfl, rfl, answers_next (by decide +kernel)⟩,
    ⟨small_inv, rfl, .inr ⟨rfl, rfl⟩, answers_next (by decide +kernel)⟩⟩

/-- The running example about to be encoded: the START is to come, and every answer is laid down. -/
def encodeReady : State :=
  { small with sched := [.write 0 1], srcIn := [.bytes payload], vwIn := List.replicate 6 .ok }

theorem witness_WholeEncode :
    Inv encodeReady ∧ encodeReady.idle = true ∧ encodeReady.sched = [.write 0 0x00000001] ∧
    LegalGeometry encodeReady.params encodeReady.width.toNat encodeReady.height.toNat ∧ encodeReady.rate ≠ 0 ∧
    1 ≤ payload.length ∧ payload.length ≤ encodeReady.params.pbufSize ∧
    2 = ceilDiv payload.length (bytesPerFrame encodeReady.width.toNat encodeReady.height.toNat) ∧
    encodeReady.srcIn = .bytes payload :: [] ∧ encodeReady.vwIn = List.replicate (2 + 3) .ok ++ [.ok] :=
  ⟨{ small_inv with }, by decide, rfl, by decide, by decide, by decide, by decide, by decide, rfl, rfl⟩

/-- The running example's frames about to be decoded, with trailing answers that are never asked for. -/
def decodeReady (frames : List Frame) : State :=
  { small with sched := [.write 0 2], vrIn := frames.map .frame ++ [.eos], snkIn := [.ok, .err] }

theorem witness_WholeDecode :
    Inv (decodeReady [frameM, frameDF1, frameDF2]) ∧ (decodeReady [frameM, frameDF1, frameDF2]).idle = true ∧
    (decodeReady [frameM, frameDF1, frameDF2]).sched = [.write 0 0x00000002] ∧
    LegalGeometry small.params frameM.w frameM.h ∧ (decodeMetadata frameM).toNat ≤ small.params.pbufSize ∧
    (∀ F ∈ [frameDF1, frameDF2], F.w = frameM.w ∧ F.h = frameM.h) ∧
    [frameDF1, frameDF2].length = ceilDiv (decodeMetadata frameM).toNat (bytesPerFrame frameM.w frameM.h) ∧
    (decodeReady [frameM, frameDF1, frameDF2]).vrIn = (frameM :: [frameDF1, frameDF2]).map .frame ++ [.eos] ∧
    (decodeReady [frameM, frameDF1, frameDF2]).snkIn = .ok :: [.err] :=
  ⟨{ small_inv with }, by decide, rfl, by decide, by decide +kernel, by decide, by decide +kernel, rfl, rfl⟩

/-- The empty payload of a header of 0 meets the hypotheses too (vector DE9). -/
theorem witness_WholeDecode_empty :
    LegalGeometry small.params (blank 32 8).w (blank 32 8).h ∧
    ([] : List Frame).length =
      ceilDiv (decodeMetadata (blank 32 8)).toNat (bytesPerFrame (blank 32 8).w (blank 32 8).h) ∧
    (decodeReady [blank 32 8]).vrIn = ((blank 32 8) :: []).map .frame ++ [.eos] :=
  ⟨by decide, by decide +kernel, rfl⟩

theorem witness_DecodeInvertsEncode :
    Inv (decodeReady (frameSequence 32 8 payload)) ∧ (decodeReady (frameSequence 32 8 payload)).idle = true ∧
    (decodeReady (frameSequence 32 8 payload)).sched = [.write 0 0x00000002] ∧ LegalGeometry small.params 32 8 ∧
    1 ≤ payload.length ∧ payload.length ≤ small.params.pbufSize ∧
    (decodeReady (frameSequence 32 8 payload)).vrIn = (frameSequence 32 8 payload).map .frame ++ [.eos] ∧
    (decodeReady (frameSequence 32 8 payload)).snkIn = .ok :: [.err] :=
  ⟨{ small_inv with }, by decide, rfl, by decide, by decide, by decide, rfl, rfl⟩

theorem witness_EveryOperationEnds :
    Inv { midDecode with vrIn := [.frame frameDF2] } ∧ ({ midDecode with vrIn := [.frame frameDF2] } : State).sched = [] :=
  ⟨midDecode_inv, rfl⟩

end Sys2Proof.Tests
end

/-! PROOF. What a step does to the parameters and to PBUF, said once: the parameters stay (R6), and PBUF stays, takes
one MemWrite inside it (R57), or is emptied by a reset (R260). -/

namespace Sys2Proof.Machine

/-! ### The effects that store nothing -/

@[simp] theorem State.writeWord_params (s : State) (i : Index) (v : Word) : (s.writeWord i v).params = s.params := by
  unfold State.writeWord
  split
  case h_4 => rfl
  all_goals split <;> rfl

@[simp] theorem State.writeWord_pbuf (s : State) (i : Index) (v : Word) : (s.writeWord i v).pbuf = s.pbuf := by
  unfold State.writeWord
  split
  case h_4 => rfl
  all_goals split <;> rfl

@[simp] theorem State.resetBlock_params (s : State) : s.resetBlock.params = s.params := rfl
@[simp] theorem State.resetBlock_pbuf (s : State) : s.resetBlock.pbuf = State.reset.pbuf := rfl

@[simp] theorem encStartEffect_params (s : State) : (encStartEffect s).params = s.params := by
  obtain ⟨-, h⟩ | ⟨-, -, h⟩ | ⟨-, -, h⟩ := encStartEffect_cases s <;> simp [h]

@[simp] theorem encStartEffect_pbuf (s : State) : (encStartEffect s).pbuf = s.pbuf := by
  obtain ⟨-, h⟩ | ⟨-, -, h⟩ | ⟨-, -, h⟩ := encStartEffect_cases s <;> simp [h]

@[simp] theorem abortEffect_params (s : State) : (abortEffect s).params = s.params := by
  obtain ⟨-, -, h⟩ | ⟨-, -, h⟩ | ⟨-, -, h⟩ | ⟨-, -, h⟩ | ⟨-, -, h⟩ := abortEffect_cases s <;> simp [h]

@[simp] theorem abortEffect_pbuf (s : State) : (abortEffect s).pbuf = s.pbuf := by
  obtain ⟨-, -, h⟩ | ⟨-, -, h⟩ | ⟨-, -, h⟩ | ⟨-, -, h⟩ | ⟨-, -, h⟩ := abortEffect_cases s <;> simp [h]

@[simp] theorem clearEffect_params (s : State) : (clearEffect s).params = s.params := by
  unfold clearEffect; split <;> rfl

@[simp] theorem clearEffect_pbuf (s : State) : (clearEffect s).pbuf = s.pbuf := by
  unfold clearEffect; split <;> rfl

@[simp] theorem latchHeader_params (s : State) (F : Frame) : (latchHeader s F).params = s.params := by
  obtain ⟨t, rfl, ⟨-, h⟩ | ⟨-, h⟩⟩ := latchHeader_cases s F <;> simp [h]

@[simp] theorem latchHeader_pbuf (s : State) (F : Frame) : (latchHeader s F).pbuf = s.pbuf := by
  obtain ⟨t, rfl, ⟨-, h⟩ | ⟨-, h⟩⟩ := latchHeader_cases s F <;> simp [h]

@[simp] theorem advanceDecode_params (s : State) (m : Nat) : (advanceDecode s m).params = s.params := by
  obtain ⟨t, rfl, ⟨-, h⟩ | ⟨-, h⟩⟩ := advanceDecode_cases s m <;> simp [h]

@[simp] theorem advanceDecode_pbuf (s : State) (m : Nat) : (advanceDecode s m).pbuf = s.pbuf := by
  obtain ⟨t, rfl, ⟨-, h⟩ | ⟨-, h⟩⟩ := advanceDecode_cases s m <;> simp [h]

/-! ### At most one MemWrite -/

/-- From s to t the parameters stay, and PBUF stays or takes one MemWrite inside its range (R57). -/
structure OneStore (s t : State) : Prop where
  params_eq : t.params = s.params
  pbuf_eq : t.pbuf = s.pbuf ∨ ∃ a B, a + B.length ≤ s.params.pbufSize ∧ t.pbuf = s.pbuf.writeBytes a B

theorem OneStore.of_unchanged {s t : State} (hp : t.params = s.params) (hb : t.pbuf = s.pbuf) : OneStore s t :=
  ⟨hp, .inl hb⟩

theorem OneStore.of_write {s t : State} {a : Nat} {B : List Byte} (hr : a + B.length ≤ s.params.pbufSize)
    (hp : t.params = s.params) (hb : t.pbuf = s.pbuf.writeBytes a B) : OneStore s t :=
  ⟨hp, .inr ⟨a, B, hr, hb⟩⟩

/-- The turns to come are neither a parameter nor a cell of PBUF. -/
theorem OneStore.of_sched {s t : State} {l : List Turn} (h : OneStore { s with sched := l } t) : OneStore s t :=
  ⟨h.params_eq, h.pbuf_eq⟩

/-- A MemWrite keeps the canonical form, and so does a transition with at most one. -/
theorem OneStore.pbuf_wf {s t : State} (h : OneStore s t) (hs : s.pbuf.wf) : t.pbuf.wf := by
  obtain hb | ⟨a, B, -, hb⟩ := h.pbuf_eq
  · rwa [hb]
  · rw [hb]; exact Memory.writeBytes_wf s.pbuf a B hs

/-! ### Commands -/

theorem execEncStart_oneStore {s t : State} (h : execEncStart s = .next t) : OneStore s t := by
  obtain ⟨-, rfl⟩ | ⟨-, rfl⟩ := execEncStart_next h
  · exact .of_unchanged (by simp) (by simp)
  · exact .of_unchanged rfl rfl

theorem execDecStart_oneStore {s t : State} (h : execDecStart s = .next t) : OneStore s t := by
  obtain ⟨-, rfl⟩ | ⟨-, rfl⟩ := execDecStart_next h <;> exact .of_unchanged rfl rfl

theorem execAbort_oneStore {s t : State} (h : execAbort s = .next t) : OneStore s t := by
  obtain rfl := execAbort_next h
  exact .of_unchanged (by simp) (by simp)

theorem execClear_oneStore {s t : State} (h : execClear s = .next t) : OneStore s t := by
  obtain ⟨-, rfl⟩ | ⟨-, rfl⟩ := execClear_next h
  · exact .of_unchanged (by simp) (by simp)
  · exact .of_unchanged rfl rfl

/-! ### Encoder steps -/

/-- R140: ENC_LOAD is the encode's one store, of the payload at cell 0. -/
theorem execEncLoad_oneStore {s t : State} (h : execEncLoad s = .next t) : OneStore s t := by
  obtain ⟨c, -, -, rfl⟩ | ⟨B, -, -, hr, rfl⟩ := execEncLoad_next h
  · exact .of_unchanged (by simp) (by simp)
  · exact .of_write (a := 0) (B := B) (by omega) (by simp) rfl

theorem execEncMeta_oneStore {s t : State} (h : execEncMeta s = .next t) : OneStore s t := by
  obtain ⟨-, rfl⟩ | ⟨-, u, rfl, ⟨-, rfl⟩ | ⟨-, rfl⟩⟩ := execEncMeta_next h <;>
    exact .of_unchanged (by simp) (by simp)

theorem execEncData_oneStore {s t : State} (h : execEncData s = .next t) : OneStore s t := by
  obtain ⟨B, -, ⟨-, rfl⟩ | ⟨-, rfl⟩⟩ := execEncData_next h <;> exact .of_unchanged (by simp) (by simp)

theorem execEncFinish_oneStore {s t : State} (h : execEncFinish s = .next t) : OneStore s t := by
  obtain ⟨-, rfl⟩ | ⟨-, rfl⟩ := execEncFinish_next h <;> exact .of_unchanged (by simp) (by simp)

/-! ### Decoder steps -/

theorem execDecMeta_oneStore {s t : State} (h : execDecMeta s = .next t) : OneStore s t := by
  obtain ⟨c, -, -, rfl, -⟩ | ⟨F, -, ⟨c, -, -, rfl⟩ | ⟨-, -, rfl⟩⟩ := execDecMeta_next h <;>
    exact .of_unchanged (by simp) (by simp)

/-- R173: DEC_DATA's one store is the frame's bytes at CURSOR. -/
theorem execDecData_oneStore {s t : State} (h : execDecData s = .next t) : OneStore s t := by
  obtain ⟨c, -, -, rfl, -⟩ | ⟨F, -, ⟨c, -, -, rfl⟩ | ⟨-, -, hr, rfl⟩⟩ := execDecData_next h
  · exact .of_unchanged (by simp) (by simp)
  · exact .of_unchanged (by simp) (by simp)
  · exact .of_write (a := s.cursor.toNat) (B := unpackFrame F s.width.toNat s.chunk) (by simpa using hr)
      (by simp) (by simp)

theorem execDecCommit_oneStore {s t : State} (h : execDecCommit s = .next t) : OneStore s t := by
  obtain ⟨B, -, ⟨-, rfl⟩ | ⟨-, rfl⟩⟩ := execDecCommit_next h <;> exact .of_unchanged (by simp) (by simp)

/-! ### Every instruction, every step -/

/-- No instruction stores more than once, whatever the state it starts from. -/
theorem exec_oneStore {c : Instr} {s t : State} (h : exec c s = .next t) : OneStore s t := by
  cases c with
  | encStart => exact execEncStart_oneStore h
  | decStart => exact execDecStart_oneStore h
  | abort => exact execAbort_oneStore h
  | clear => exact execClear_oneStore h
  | encLoad => exact execEncLoad_oneStore h
  | encMeta => exact execEncMeta_oneStore h
  | encData => exact execEncData_oneStore h
  | encFinish => exact execEncFinish_oneStore h
  | decMeta => exact execDecMeta_oneStore h
  | decData => exact execDecData_oneStore h
  | decCommit => exact execDecCommit_oneStore h

/-- A step empties PBUF by a reset, or stores at most once. -/
theorem step_reset_or_oneStore {s t : State} (h : step s = .next t) :
    (t.params = s.params ∧ t.pbuf = State.reset.pbuf) ∨ OneStore s t := by
  obtain ⟨rest, -, rfl⟩ | ⟨-, rest, hturn⟩ := step_next h
  · exact .inl ⟨rfl, rfl⟩
  · right
    obtain ⟨i, -, rfl⟩ | ⟨v, c, -, -, hx⟩ | ⟨v, r, -, -, rfl⟩ | ⟨i, v, -, -, rfl⟩ | ⟨-, ⟨c, -, hx⟩ | ⟨-, rfl⟩⟩ := hturn
    · exact .of_unchanged rfl rfl
    · exact (exec_oneStore hx).of_sched
    · exact .of_unchanged rfl rfl
    · exact .of_unchanged (by simp) (by simp)
    · exact (exec_oneStore hx).of_sched
    · exact .of_unchanged rfl rfl

/-- Settles O53: a reset leaves PBUF empty, which is canonical, and any other step stores by at most one MemWrite. -/
theorem parametersAndFormKept : Obligations.ParametersAndFormKept := by
  intro s t h
  obtain ⟨hp, hb⟩ | hone := step_reset_or_oneStore h
  · exact ⟨hp, fun _ => hb ▸ Memory.reset_wf⟩
  · exact ⟨hone.params_eq, hone.pbuf_wf⟩

end Sys2Proof.Machine

/-! PROOF. STATUS, its layout (R26, R33) and what the reset state holds (R44). -/

namespace Sys2Proof.Machine

/-! ### The STATUS word -/

/-- A field of a register word is its quotient and remainder. -/
theorem extractLsb'_eq_of_toNat {w i n : Nat} {x : BitVec w} {y : BitVec n} (h : x.toNat / 2 ^ i % 2 ^ n = y.toNat) :
    x.extractLsb' i n = y :=
  BitVec.eq_of_toNat_eq (by rw [BitVec.extractLsb'_toNat, Nat.shiftRight_eq_div_pow, h])

/-- R26: STATUS as a number; the sum of the fields does not wrap. -/
theorem State.status_toNat (s : State) :
    s.status.toNat = s.mode.toNat + 8 * s.phase.toNat + 256 * s.errcode.toNat + 65536 * s.lastcmd.toNat
      + 2 ^ 18 * s.vwOpen.toNat + 2 ^ 19 * s.vrHeld.toNat + 2 ^ 20 * s.irq.toNat := by
  have := s.mode.isLt; have := s.phase.isLt; have := s.errcode.isLt; have := s.lastcmd.isLt
  have := s.vwOpen.toNat_le; have := s.vrHeld.toNat_le; have := s.irq.toNat_le
  unfold State.status
  rw [BitVec.toNat_ofNat]; omega

/-- A bit of a register word, as a digit of its value. -/
theorem getLsbD_eq_of_toNat {w i : Nat} {x : BitVec w} {b : Bool} (h : x.toNat / 2 ^ i % 2 = b.toNat) :
    x.getLsbD i = b := by
  rw [BitVec.getLsbD, Nat.testBit_eq_decide_div_mod_eq, h]; cases b <;> rfl

/-- Settles O8: each field is read off the sum, every field below its neighbour's weight. -/
theorem statusWordLayout : Obligations.StatusWordLayout := by
  intro s
  have hm := s.mode.isLt; have hp := s.phase.isLt; have he := s.errcode.isLt; have hl := s.lastcmd.isLt
  have hw := s.vwOpen.toNat_le; have hr := s.vrHeld.toNat_le; have hi := s.irq.toNat_le
  have z2 : (0 : BitVec 2).toNat = 0 := rfl
  have z11 : (0 : BitVec 11).toNat = 0 := rfl
  have hs := s.status_toNat
  refine ⟨extractLsb'_eq_of_toNat ?_, extractLsb'_eq_of_toNat ?_, extractLsb'_eq_of_toNat ?_,
    extractLsb'_eq_of_toNat ?_, extractLsb'_eq_of_toNat ?_, getLsbD_eq_of_toNat (b := s.vwOpen) ?_,
    getLsbD_eq_of_toNat (b := s.vrHeld) ?_, getLsbD_eq_of_toNat ?_, rfl, extractLsb'_eq_of_toNat ?_⟩
  all_goals omega

/-- Settles O13: every element of R44's table is a literal of the reset state; no cell of the empty PBUF is read. -/
theorem resetValues : Obligations.ResetValues := by
  unfold Obligations.ResetValues
  refine ⟨rfl, rfl, rfl, rfl, by decide, rfl, rfl, rfl, rfl, rfl, rfl, rfl, rfl, rfl, rfl, rfl, fun a => ?_, rfl, rfl⟩
  exact Memory.read_nil a

end Sys2Proof.Machine

/-! PROOF. The invariants of R43, MODE by MODE: the clauses that hold in every MODE (`Common`), one introduction rule
per MODE, and what a data step does to FIDX and CURSOR (R146, R173). -/

namespace Sys2Proof.Machine

/-! ### The clauses that no MODE changes -/

/-- The clauses of `Inv` that look at neither MODE nor PHASE nor ERRCODE. -/
structure Common (s : State) : Prop where
  params_legal : s.params.legal = true
  lastcmd_ne : s.lastcmd ≠ 3
  fb_none : s.fb = none
  pbuf_wf : s.pbuf.wf
  pbuf_range : ∀ c ∈ s.pbuf, c.1 < s.params.pbufSize
  length_le : s.length.toNat ≤ s.params.pbufSize

theorem Inv.common {s : State} (h : Inv s) : Common s where
  params_legal := h.params_legal
  lastcmd_ne := ((State.heldFault_eq_none s).1 h.held).2.2
  fb_none := h.fb_none
  pbuf_wf := h.pbuf_wf
  pbuf_range := h.pbuf_range
  length_le := h.length_le

/-- A transition that stores at most once keeps the clauses about the parameters and PBUF. -/
theorem Common.of_oneStore {s t : State} (h : Common s) (hs : OneStore s t) (hlast : t.lastcmd ≠ 3)
    (hfb : t.fb = none) (hlen : t.length.toNat ≤ s.params.pbufSize) : Common t where
  params_legal := hs.params_eq ▸ h.params_legal
  lastcmd_ne := hlast
  fb_none := hfb
  pbuf_wf := hs.pbuf_wf h.pbuf_wf
  pbuf_range := by
    rw [hs.params_eq]
    obtain hb | ⟨a, B, hr, hb⟩ := hs.pbuf_eq <;> rw [hb]
    · exact h.pbuf_range
    · exact Memory.writeBytes_range s.pbuf a _ B h.pbuf_range hr
  length_le := hs.params_eq ▸ hlen

/-- From s to t no operand of the running operation changes; MODE, PHASE, ERRCODE, FIDX and CURSOR may. -/
structure SameOperands (s t : State) : Prop where
  params : t.params = s.params
  lastcmd : t.lastcmd = s.lastcmd
  width : t.width = s.width
  height : t.height = s.height
  rate : t.rate = s.rate
  length : t.length = s.length
  bpf : t.bpf = s.bpf
  fcount : t.fcount = s.fcount
  pbuf : t.pbuf = s.pbuf
  fb : t.fb = s.fb

theorem SameOperands.refl (s : State) : SameOperands s s := ⟨rfl, rfl, rfl, rfl, rfl, rfl, rfl, rfl, rfl, rfl⟩

theorem SameOperands.emit {s t : State} (k : SameOperands s t) (e : Event) : SameOperands s (t.emit e) := { k with }

theorem SameOperands.raise {s t : State} (k : SameOperands s t) (c : BitVec 8) : SameOperands s (t.raise c) :=
  { k with }

theorem SameOperands.common {s t : State} (k : SameOperands s t) (h : Common s) : Common t :=
  h.of_oneStore (.of_unchanged k.params k.pbuf) (k.lastcmd ▸ h.lastcmd_ne) (k.fb.trans h.fb_none)
    (k.length ▸ h.length_le)

theorem SameOperands.latched {s t : State} (k : SameOperands s t) (h : Latched s) : Latched t := by
  simpa only [Latched, k.params, k.width, k.height, k.bpf] using h

theorem SameOperands.counted {s t : State} (k : SameOperands s t) (h : Counted s) : Counted t := by
  simpa only [Counted, k.fcount, k.length, k.bpf] using h

theorem SameOperands.atEnd {s t : State} (k : SameOperands s t) (hf : t.fidx = s.fidx) (hc : t.cursor = s.cursor)
    (h : AtEnd s) : AtEnd t := by
  simpa only [AtEnd, k.fcount, k.length, hf, hc] using h

/-- The payload in PBUF is still SRC's when no later READ was answered. -/
theorem SameOperands.holdsPayload {s t : State} (k : SameOperands s t) (hh : lastRead t.hist = lastRead s.hist)
    (h : HoldsPayload s) : HoldsPayload t := by
  simpa only [HoldsPayload, hh, k.length, k.pbuf] using h

/-! ### R43 as a case distinction -/

/-- What R43 asks of a running encode in each of its PHASEs. -/
structure Encoding (s : State) : Prop where
  mode : s.mode = Mode.enc
  errcode : s.errcode = 0
  rate : s.rate ≠ 0
  latched : Latched s

/-- R43 with R28 and R29: the ten situations a state between two steps may be in, and what holds in each. -/
inductive Situation (s : State) : Prop
  | idle (hm : s.mode = Mode.idle) (hp : s.phase = 0) (he : s.errcode = 0)
  | encLoad (hs : Encoding s) (hp : s.phase = Phase.encLoad)
      (hz : s.length = 0 ∧ s.fcount = 0 ∧ s.fidx = 0 ∧ s.cursor = 0)
  | encMeta (hs : Encoding s) (hp : s.phase = Phase.encMeta)
      (hc : 1 ≤ s.length.toNat ∧ Counted s ∧ s.fidx = 0 ∧ s.cursor = 0 ∧ HoldsPayload s)
  | encData (hs : Encoding s) (hp : s.phase = Phase.encData) (hc : Counted s ∧ AtData s ∧ HoldsPayload s)
  | encFinish (hs : Encoding s) (hp : s.phase = Phase.encFinish) (hc : Counted s ∧ AtEnd s ∧ HoldsPayload s)
  | decMeta (hm : s.mode = Mode.dec) (he : s.errcode = 0) (hp : s.phase = Phase.decMeta)
      (hz : s.length = 0 ∧ s.bpf = 0 ∧ s.fcount = 0 ∧ s.fidx = 0 ∧ s.cursor = 0)
  | decData (hm : s.mode = Mode.dec) (he : s.errcode = 0) (hp : s.phase = Phase.decData)
      (hc : Latched s ∧ Counted s ∧ AtData s ∧ PbufHolds s.pbuf s.cursor.toNat)
  | decCommit (hm : s.mode = Mode.dec) (he : s.errcode = 0) (hp : s.phase = Phase.decCommit)
      (hc : Latched s ∧ Counted s ∧ AtEnd s ∧ PbufHolds s.pbuf s.length.toNat)
  | done (hm : s.mode = Mode.done) (hp : s.phase = 0) (he : s.errcode = 0) (hc : Counted s ∧ AtEnd s)
  | error (hm : s.mode = Mode.error) (hp : s.phase = 0) (hc : errcodeHeld s.errcode = true) (h0 : s.errcode ≠ 0)

theorem Situation.pairHeld {s : State} (h : Situation s) : pairHeld s.mode s.phase = true := by
  cases h <;> simp_all [Machine.pairHeld, Encoding.mode, modeIdle]

theorem Situation.encoding {s : State} (h : Situation s) (hm : s.mode = Mode.enc) : Encoding s := by
  cases h
  case encLoad hs _ _ | encMeta hs _ _ | encData hs _ _ | encFinish hs _ _ => exact hs
  all_goals simp_all

theorem Situation.errcodeHeld {s : State} (h : Situation s) : errcodeHeld s.errcode = true := by
  cases h <;> simp_all [Machine.errcodeHeld, Encoding.errcode]

/-- The common clauses and one of the ten situations make up the invariants: a clause of R43 is what its own situation
says, and every other situation has another MODE or PHASE. -/
theorem Inv.of_situation {s : State} (h : Common s) (hs : Situation s) : Inv s where
  __ := h
  held := (State.heldFault_eq_none s).2 ⟨hs.pairHeld, hs.errcodeHeld, h.lastcmd_ne⟩
  errcode_iff := by cases hs <;> simp_all [Encoding.mode, Encoding.errcode]
  enc_rate hm := (hs.encoding hm).rate
  enc_latched hm := (hs.encoding hm).latched
  enc_load hm hp := by cases hs <;> simp_all
  enc_meta hm hp := by cases hs <;> simp_all
  enc_data hm hp := by cases hs <;> simp_all
  enc_finish hm hp := by cases hs <;> simp_all
  dec_meta hm hp := by cases hs <;> simp_all [Encoding.mode]
  dec_data hm hp := by cases hs <;> simp_all [Encoding.mode]
  dec_commit hm hp := by cases hs <;> simp_all [Encoding.mode]
  done hm := by cases hs <;> simp_all [Encoding.mode]

/-- R29: outside ERROR there is no code. -/
theorem Inv.errcode_zero {s : State} (h : Inv s) (hm : s.mode ≠ Mode.error) : s.errcode = 0 := by
  by_contra h0; exact hm (h.errcode_iff.1 h0)

theorem Inv.encoding {s : State} (h : Inv s) (hm : s.mode = Mode.enc) : Encoding s :=
  ⟨hm, h.errcode_zero (by rw [hm]; decide), h.enc_rate hm, h.enc_latched hm⟩

theorem Encoding.of_sameOperands {s t : State} (h : Encoding s) (k : SameOperands s t) (hm : t.mode = s.mode)
    (he : t.errcode = s.errcode) : Encoding t :=
  ⟨hm.trans h.mode, he.trans h.errcode, k.rate ▸ h.rate, k.latched h.latched⟩

end Sys2Proof.Machine

/-! PROOF. What a data step does to FIDX and CURSOR (R146, R173): the arithmetic of R104 to R106 in the state. -/

namespace Sys2Proof.Machine

/-- R106: BPF of a running operation is at least 32. -/
theorem Latched.le_bpf {s : State} (hp : s.params.legal = true) (h : Latched s) : 32 ≤ s.bpf.toNat := by
  rw [h.2]; exact (bytesPerFrame_bounds hp h.1).1

/-! ### Results fit their registers (R106) -/

theorem toNat_bytesPerFrame {p : Params} {w h : Nat} (hp : p.legal = true) (hg : validGeom p w h = true) :
    (BitVec.ofNat 32 (bytesPerFrame w h)).toNat = bytesPerFrame w h := by
  have hb := bytesPerFrame_bounds hp hg
  rw [BitVec.toNat_ofNat]; omega

/-- The frame count is at most the length, also for the empty payload. -/
theorem ceilDiv_le_self {a b : Nat} (hb : 1 ≤ b) : ceilDiv a b ≤ a := by
  obtain rfl | ha := Nat.eq_zero_or_pos a
  · exact Nat.le_of_eq (Nat.div_eq_of_lt (by omega))
  · exact ceilDiv_le ha hb

theorem toNat_ceilDiv {a b : Nat} (ha : a < 2 ^ 32) (hb : 1 ≤ b) :
    (BitVec.ofNat 32 (ceilDiv a b)).toNat = ceilDiv a b := by
  have hle := ceilDiv_le_self (a := a) hb
  rw [BitVec.toNat_ofNat]; omega

/-! ### FIDX and CURSOR -/

/-- R43.4: the first data frame of a payload that is not empty. -/
theorem AtData.first {s : State} (hb : 32 ≤ s.bpf.toNat) (hc : Counted s) (hfidx : s.fidx = 1) (hcur : s.cursor = 0)
    (hpos : 0 < s.length.toNat) : AtData s := by
  have hframes : 1 ≤ s.fcount.toNat := hc ▸ ceilDiv_pos hpos (by omega)
  exact ⟨by simp [hfidx], by simpa [hfidx] using hframes, by simp [hfidx, hcur], by rw [hcur]; exact hpos⟩

/-- R43.7: of an empty payload nothing but the metadata frame is to be read. -/
theorem AtEnd.of_empty {s : State} (hb : 32 ≤ s.bpf.toNat) (hc : Counted s) (hfidx : s.fidx = 1) (hcur : s.cursor = 0)
    (hlen : s.length = 0) : AtEnd s := by
  have hframes : s.fcount.toNat ≤ s.length.toNat := hc ▸ ceilDiv_le_self (by omega)
  have hnone : s.fcount.toNat = 0 := Nat.le_zero.1 (by simpa [hlen] using hframes)
  exact ⟨by simp [hfidx, hnone], by rw [hcur, hlen]⟩

section
variable {s : State} (hb : 32 ≤ s.bpf.toNat) (hc : Counted s) (ha : AtData s)
include hb hc ha

/-- R104, R105: the step of the last data frame handles the rest of the payload, every other one BPF bytes. -/
theorem AtData.chunk_cases :
    (s.fidx.toNat = s.fcount.toNat ∧ s.cursor.toNat + s.chunk = s.length.toNat) ∨
    (s.fidx.toNat < s.fcount.toNat ∧ s.cursor.toNat + s.chunk = s.fidx.toNat * s.bpf.toNat ∧
      s.cursor.toNat + s.chunk < s.length.toNat) := by
  obtain ⟨h1, hle, hcur, hlt⟩ := ha
  have hmul : s.fidx.toNat * s.bpf.toNat = s.cursor.toNat + s.bpf.toNat := by
    obtain ⟨k, hk⟩ := Nat.exists_eq_add_of_le' h1
    rw [hcur, hk, Nat.add_sub_cancel, Nat.succ_mul]
  unfold State.chunk chunkLength
  obtain heq | hmore := Nat.eq_or_lt_of_le hle
  · have hall : s.length.toNat ≤ s.fcount.toNat * s.bpf.toNat := hc ▸ le_ceilDiv_mul (by omega)
    rw [← heq] at hall
    exact .inl ⟨heq, by omega⟩
  · have hpre : (s.fcount.toNat - 1) * s.bpf.toNat < s.length.toNat :=
      hc ▸ ceilDiv_pred_mul_lt (by omega) (by omega)
    have hstep := Nat.mul_le_mul_right s.bpf.toNat (show s.fidx.toNat ≤ s.fcount.toNat - 1 by omega)
    exact .inr ⟨hmore, by omega, by omega⟩

/-- R106: neither sum of a data step wraps. -/
theorem AtData.sums_fit :
    (BitVec.ofNat 32 (s.cursor.toNat + s.chunk)).toNat = s.cursor.toNat + s.chunk ∧
    (BitVec.ofNat 32 (s.fidx.toNat + 1)).toNat = s.fidx.toNat + 1 := by
  have hchunk := ha.chunk_cases hb hc
  obtain ⟨-, hle, hcur, hlt⟩ := ha
  have hl := s.length.isLt
  have hfit := Nat.mul_le_mul_left (s.fidx.toNat - 1) hb
  simp only [BitVec.toNat_ofNat]
  omega

/-- R43.4, R43.5: a data step leads to the next data frame, or past the last one. -/
theorem AtData.next {t : State} (hcur : t.cursor = BitVec.ofNat 32 (s.cursor.toNat + s.chunk))
    (hfidx : t.fidx = BitVec.ofNat 32 (s.fidx.toNat + 1)) (hlen : t.length = s.length) (hbpf : t.bpf = s.bpf)
    (hfc : t.fcount = s.fcount) :
    (s.fidx.toNat = s.fcount.toNat ∧ s.cursor.toNat + s.chunk = s.length.toNat ∧ AtEnd t) ∨
    (s.fidx.toNat < s.fcount.toNat ∧ s.cursor.toNat + s.chunk < s.length.toNat ∧ AtData t) := by
  obtain ⟨hfitc, hfitf⟩ := ha.sums_fit hb hc
  rw [← hcur] at hfitc
  rw [← hfidx] at hfitf
  obtain ⟨heq, hend⟩ | ⟨hlt, hoff, hmore⟩ := ha.chunk_cases hb hc
  · refine .inl ⟨heq, hend, by rw [hfitf, hfc, heq], BitVec.eq_of_toNat_eq ?_⟩
    rw [hfitc, hend, hlen]
  · refine .inr ⟨hlt, hmore, by omega, by rw [hfitf, hfc]; omega, ?_, by rw [hfitc, hlen]; exact hmore⟩
    rw [hfitc, hfitf, hoff, hbpf, Nat.add_sub_cancel]

end

/-- R57: bytes written from CURSOR on extend what PBUF holds. -/
theorem PbufHolds.writeBytes {m : Memory} {n : Nat} (h : PbufHolds m n) (B : List Byte) :
    PbufHolds (m.writeBytes n B) (n + B.length) := by
  intro a ha
  by_cases hin : a < n
  · rw [Memory.read_writeBytes_outside m n a B (.inl hin)]; exact h a hin
  · obtain ⟨k, rfl⟩ := Nat.exists_eq_add_of_le (Nat.le_of_not_lt hin)
    have hk : k < B.length := by omega
    rw [Memory.read_writeBytes_inside m n k B hk, List.getElem?_eq_getElem hk]; rfl

/-! ### The last READ of a history -/

@[simp] theorem lastRead_srcRead (H : List Event) (r : SrcAnswer) : lastRead (H ++ [.srcRead r]) = some r := by
  rw [lastRead, List.foldl_append]; rfl

@[simp] theorem lastRead_vwBegin (H K : List Event) (w h rate : Nat) (a : Ack) :
    lastRead (H ++ .vwBegin w h rate a :: K) = lastRead (H ++ K) := by
  simp only [lastRead, List.foldl_append, List.foldl_cons]

@[simp] theorem lastRead_vwPut (H K : List Event) (F : Frame) (a : Ack) :
    lastRead (H ++ .vwPut F a :: K) = lastRead (H ++ K) := by
  simp only [lastRead, List.foldl_append, List.foldl_cons]

end Sys2Proof.Machine

/-! PROOF. Every step keeps the invariants of R43 (R44 for the state they start from). -/

namespace Sys2Proof.Machine

/-! ### Failing and passing -/

/-- R236: a step that ends in an operation error leaves the operands and names a code of R230. -/
theorem Inv.raise {s t : State} (h : Common s) (k : SameOperands s t) {c : BitVec 8} (hc : errcodeHeld c = true)
    (h0 : c ≠ ErrCode.none) : Inv (t.raise c) :=
  .of_situation ((k.raise c).common h) (.error rfl rfl hc h0)

/-- R143, R146, R149: a failing writer request. -/
theorem Inv.failWriter {s t : State} (h : Common s) (k : SameOperands s t) : Inv t.failWriter :=
  .raise h (k.emit .vwDiscard) rfl (by decide)

/-- R170, R173: a failing decode step while the reader is held. -/
theorem Inv.failReader {s t : State} (h : Common s) (k : SameOperands s t) {c : BitVec 8}
    (hc : errcodeHeld c = true) (h0 : c ≠ ErrCode.none) : Inv (t.failReader c) :=
  .raise h (k.emit .vrRelease) hc h0

/-- LASTCMD may become any value that is held. -/
theorem Inv.with_lastcmd {s : State} (h : Inv s) {c : BitVec 2} (hc : c ≠ 3) : Inv { s with lastcmd := c } :=
  { h with
    held := by
      obtain ⟨hpair, herr, -⟩ := (State.heldFault_eq_none s).1 h.held
      exact (State.heldFault_eq_none _).2 ⟨hpair, herr, hc⟩ }

/-! ### Reset -/

/-- R44, R260: the state after reset is idle with nothing in it, whatever the legal parameters. -/
theorem Inv.resetBlock {s : State} (hp : s.params.legal = true) : Inv s.resetBlock :=
  .of_situation
    { params_legal := hp
      lastcmd_ne := show State.reset.lastcmd ≠ 3 by decide
      fb_none := rfl
      pbuf_wf := Memory.reset_wf
      pbuf_range := by simp [State.reset]
      length_le := Nat.zero_le _ }
    (.idle rfl rfl rfl)

/-- Settles O45: the reset state is its own reset, and both ports start closed. -/
theorem invariantsHoldAtReset : Obligations.InvariantsHoldAtReset :=
  ⟨Inv.resetBlock (s := State.reset) (by decide), rfl, rfl⟩

/-! ### Commands -/

/-- R202, R205: what both STARTs clear meets the common clauses again. -/
theorem Common.startClear {s : State} (h : Common s) : Common s.startClear :=
  h.of_oneStore (.of_unchanged rfl rfl) (by simp) h.fb_none (Nat.zero_le _)

theorem Inv.encStartEffect {s : State} (h : Inv s) : Inv (encStartEffect s) := by
  have hc := h.common.startClear
  obtain ⟨-, he⟩ | ⟨-, -, he⟩ | ⟨hg, hr, he⟩ := encStartEffect_cases s <;> rw [he]
  · exact .raise hc (.refl _) rfl (by decide)
  · exact .raise hc (.refl _) rfl (by decide)
  · have hlat := toNat_bytesPerFrame h.params_legal hg
    exact .of_situation { hc with } (.encLoad ⟨rfl, rfl, hr, hg, hlat⟩ rfl ⟨rfl, rfl, rfl, rfl⟩)

theorem Inv.decStart {s : State} (h : Inv s) :
    Inv { s.startClear with mode := Mode.dec, phase := Phase.decMeta } :=
  .of_situation { h.common.startClear with } (.decMeta rfl rfl rfl ⟨rfl, rfl, rfl, rfl, rfl⟩)

theorem Inv.abortEffect {s : State} (h : Inv s) : Inv (abortEffect s) := by
  have ha := h.with_lastcmd (c := LastCmd.accepted) (by decide)
  obtain ⟨-, -, he⟩ | ⟨-, -, he⟩ | ⟨-, -, he⟩ | ⟨-, -, he⟩ | ⟨-, -, he⟩ := abortEffect_cases s <;> rw [he]
  · exact .raise ha.common ((SameOperands.refl _).emit _) rfl (by decide)
  · exact .raise ha.common (.refl _) rfl (by decide)
  · exact .raise ha.common ((SameOperands.refl _).emit _) rfl (by decide)
  · exact .raise ha.common (.refl _) rfl (by decide)
  · exact ha

theorem Inv.clearEffect {s : State} (h : Inv s) : Inv (clearEffect s) := by
  have ha := h.with_lastcmd (c := LastCmd.accepted) (by decide)
  unfold Machine.clearEffect
  split
  next hm =>
    have hp : s.phase = 0 := by
      have := ((State.heldFault_eq_none s).1 h.held).1
      obtain hm | hm := hm <;> simpa [pairHeld, hm, modeIdle] using this
    exact .of_situation { ha.common with } (.idle rfl hp rfl)
  · exact ha

/-- R201: a refused command changes LASTCMD alone. -/
theorem Inv.refused {s : State} (h : Inv s) : Inv { s with lastcmd := LastCmd.wrongState } :=
  h.with_lastcmd (by decide)

/-- A command of R82 keeps the invariants. -/
theorem Inv.exec_command {s t : State} {v : Word} {c : Instr} (h : Inv s) (hc : decodeCmd v = .ok c)
    (hx : exec c s = .next t) : Inv t := by
  obtain rfl | rfl | rfl | rfl := decodeCmd_ok hc
  · obtain ⟨-, rfl⟩ | ⟨-, rfl⟩ := execEncStart_next hx
    · exact h.encStartEffect
    · exact h.refused
  · obtain ⟨-, rfl⟩ | ⟨-, rfl⟩ := execDecStart_next hx
    · exact h.decStart
    · exact h.refused
  · obtain rfl := execAbort_next hx
    exact h.abortEffect
  · obtain ⟨-, rfl⟩ | ⟨-, rfl⟩ := execClear_next hx
    · exact h.clearEffect
    · exact h.refused

/-! ### Encoder steps -/

/-- R140, R43.3. -/
theorem Inv.execEncLoad {s t : State} (h : Inv s) (hm : s.mode = Mode.enc) (hp : s.phase = Phase.encLoad)
    (hx : execEncLoad s = .next t) : Inv t := by
  obtain ⟨c, hc, h0, rfl⟩ | ⟨B, hB, hne, hr, rfl⟩ := execEncLoad_next hx
  · exact .raise h.common (by constructor <;> simp) hc h0
  · obtain ⟨-, -, hfidx, hcur⟩ := h.enc_load hm hp
    obtain ⟨-, herr, hrate, hlat⟩ := h.encoding hm
    have hbpf := hlat.le_bpf h.params_legal
    have hpos : 1 ≤ B.length := List.length_pos_of_ne_nil hne
    have hmax := (Params.legal_bounds h.params_legal).2.2.2
    have hlen : (BitVec.ofNat 32 B.length).toNat = B.length := by rw [BitVec.toNat_ofNat]; omega
    have hcommon := h.common.of_oneStore (execEncLoad_oneStore hx) (by simpa using h.common.lastcmd_ne)
      (by simpa using h.fb_none) (hlen.trans_le hr)
    refine .of_situation hcommon (.encMeta ⟨by simpa using hm, by simpa using herr, by simpa using hrate,
      by simpa [Latched] using hlat⟩ rfl
      ⟨hlen.symm ▸ hpos, ?counted, by simpa using hfidx, by simpa using hcur, B, ?read, hlen, ?stored⟩)
    case counted =>
      simp only [Counted, State.askRead_bpf, hlen]
      exact toNat_ceilDiv (by omega) (by omega)
    case read => simp [hB]
    case stored => exact s.pbuf.readBytes_writeBytes 0 B

/-- R143, R43.4. -/
theorem Inv.execEncMeta {s t : State} (h : Inv s) (hm : s.mode = Mode.enc) (hp : s.phase = Phase.encMeta)
    (hx : execEncMeta s = .next t) : Inv t := by
  obtain ⟨-, rfl⟩ | ⟨-, u, rfl, ⟨-, rfl⟩ | ⟨-, ht⟩⟩ := execEncMeta_next hx
  · exact .failWriter h.common (by constructor <;> simp)
  · exact .failWriter h.common (by constructor <;> simp [h.fb_none])
  · have henc := h.encoding hm
    obtain ⟨hpos, hcount, -, hcur, hpay⟩ := h.enc_meta hm hp
    have hbpf := henc.latched.le_bpf h.params_legal
    have k : SameOperands s t := by subst ht; constructor <;> simp [h.fb_none]
    have hdata : AtData t := .first (k.bpf ▸ hbpf) (k.counted hcount) (by simp [ht]) (by simp [ht, hcur])
      (k.length ▸ hpos)
    exact .of_situation (k.common h.common) (.encData
      (henc.of_sameOperands k (by simp [ht]) (by simp [ht])) (by simp [ht])
      ⟨k.counted hcount, hdata, k.holdsPayload (by simp [ht]) hpay⟩)

/-- R146, R43.4, R43.5: the condition of R146 on FIDX singles out the last data frame. -/
theorem Inv.execEncData {s t : State} (h : Inv s) (hm : s.mode = Mode.enc) (hp : s.phase = Phase.encData)
    (hx : execEncData s = .next t) : Inv t := by
  obtain ⟨B, -, ⟨-, rfl⟩ | ⟨-, ht⟩⟩ := execEncData_next hx
  · exact .failWriter h.common (by constructor <;> simp [h.fb_none])
  · have henc := h.encoding hm
    obtain ⟨hcount, hdata, hpay⟩ := h.enc_data hm hp
    have k : SameOperands s t := by subst ht; constructor <;> simp [h.fb_none]
    have henc' := henc.of_sameOperands k (by simp [ht]) (by simp [ht])
    have hpay' := k.holdsPayload (by simp [ht]) hpay
    refine .of_situation (k.common h.common) ?_
    obtain ⟨hlast, -, hend⟩ | ⟨hmore, -, hnext⟩ := hdata.next (t := t) (henc.latched.le_bpf h.params_legal) hcount
      (by simp [ht]) (by simp [ht]) k.length k.bpf k.fcount
    · exact .encFinish henc' (by simp [ht, hlast]) ⟨k.counted hcount, hend, hpay'⟩
    · have hne : s.fidx.toNat ≠ s.fcount.toNat := by omega
      exact .encData henc' (by simp [ht, hne, hp]) ⟨k.counted hcount, hnext, hpay'⟩

/-- R149, R43.7. -/
theorem Inv.execEncFinish {s t : State} (h : Inv s) (hm : s.mode = Mode.enc) (hp : s.phase = Phase.encFinish)
    (hx : execEncFinish s = .next t) : Inv t := by
  obtain ⟨-, rfl⟩ | ⟨-, rfl⟩ := execEncFinish_next hx
  · exact .failWriter h.common (by constructor <;> simp)
  · obtain ⟨hcount, hend, -⟩ := h.enc_finish hm hp
    have k : SameOperands s { s.askFinish with mode := Mode.done, phase := 0 } := by constructor <;> simp
    exact .of_situation (k.common h.common) (.done rfl rfl (by simpa using (h.encoding hm).errcode)
      ⟨k.counted hcount, k.atEnd (by simp) (by simp) hend⟩)

/-! ### Decoder steps -/

/-- R170, R43.6: what DEC_META latches; a header of 0 has nothing left to read. -/
theorem Inv.latchHeader {s : State} {F : Frame} (h : Common s) (hm : s.mode = Mode.dec) (he : s.errcode = 0)
    (hcur : s.cursor = 0) (hg : validGeom s.params F.w F.h = true)
    (hr : (decodeMetadata F).toNat ≤ s.params.pbufSize) : Inv (latchHeader s F) := by
  obtain ⟨hlo, -, hw, hh⟩ := bytesPerFrame_bounds h.params_legal hg
  have hbpf := toNat_bytesPerFrame h.params_legal hg
  have hwidth : (BitVec.ofNat 16 F.w).toNat = F.w := by rw [BitVec.toNat_ofNat]; omega
  have hheight : (BitVec.ofNat 16 F.h).toNat = F.h := by rw [BitVec.toNat_ofNat]; omega
  have hfcount := toNat_ceilDiv (decodeMetadata F).isLt (show 1 ≤ bytesPerFrame F.w F.h by omega)
  obtain ⟨t, ht, hcases⟩ := latchHeader_cases s F
  have hcommon : Common t := by subst ht; exact h.of_oneStore (.of_unchanged rfl rfl) h.lastcmd_ne h.fb_none hr
  have hlat : Latched t := by subst ht; simp only [Latched, hwidth, hheight, hbpf]; exact ⟨hg, trivial⟩
  have hcount : Counted t := by subst ht; simp only [Counted, hfcount, hbpf]
  have hm' : t.mode = Mode.dec := by rw [ht, hm]
  have he' : t.errcode = 0 := by rw [ht, he]
  have hcur' : t.cursor = 0 := by rw [ht, hcur]
  have hfidx : t.fidx = 1 := by rw [ht]
  have hlen : t.length = decodeMetadata F := by rw [ht]
  have hle := hlat.le_bpf hcommon.params_legal
  have hholds {n : Word} (hn : n = 0) : PbufHolds t.pbuf n.toNat := by
    subst hn; exact fun _ ha => absurd ha (Nat.not_lt_zero _)
  obtain ⟨hz, heq⟩ | ⟨hnz, heq⟩ := hcases <;> rw [heq]
  · have hlen0 : t.length = 0 := hlen.trans hz
    have hend := AtEnd.of_empty hle hcount hfidx hcur' hlen0
    exact .of_situation { hcommon with } (.decCommit hm' he' rfl ⟨hlat, hcount, hend, hholds hlen0⟩)
  · have hpos : 0 < t.length.toNat := by
      rw [hlen]; exact Nat.pos_of_ne_zero fun h0 => hnz (BitVec.eq_of_toNat_eq h0)
    have hdata := AtData.first hle hcount hfidx hcur' hpos
    exact .of_situation { hcommon with } (.decData hm' he' rfl ⟨hlat, hcount, hdata, hholds hcur'⟩)

/-- R170, R43.6. -/
theorem Inv.execDecMeta {s t : State} (h : Inv s) (hm : s.mode = Mode.dec) (hp : s.phase = Phase.decMeta)
    (hx : execDecMeta s = .next t) : Inv t := by
  obtain ⟨c, hc, h0, rfl, -⟩ | ⟨F, -, ⟨c, hc, h0, rfl⟩ | ⟨hg, hr, rfl⟩⟩ := execDecMeta_next hx
  · exact .failReader h.common (by constructor <;> simp) hc h0
  · exact .failReader h.common (by constructor <;> simp [h.fb_none]) hc h0
  · have k : SameOperands s s.askNext.dropFb := by constructor <;> simp [h.fb_none]
    obtain ⟨-, -, -, -, hcur⟩ := h.dec_meta hm hp
    have he := h.errcode_zero (by rw [hm]; decide)
    exact .latchHeader (k.common h.common) (by simpa using hm) (by simpa using he) (by simpa using hcur)
      (by simpa using hg) (by simpa using hr)

/-- R173, R43.6, R43.7: the condition of R173 on CURSOR singles out the last data frame. -/
theorem Inv.advanceDecode {s : State} {m : Nat} (h : Common s) (hm : s.mode = Mode.dec) (he : s.errcode = 0)
    (hp : s.phase = Phase.decData) (hlat : Latched s) (hcount : Counted s) (hdata : AtData s) (hchunk : s.chunk = m)
    (hholds : PbufHolds s.pbuf (s.cursor.toNat + m)) : Inv (advanceDecode s m) := by
  subst hchunk
  have hbpf := hlat.le_bpf h.params_legal
  have hsum := (hdata.sums_fit hbpf hcount).1
  obtain ⟨u, rfl, hcases⟩ := advanceDecode_cases s s.chunk
  obtain ⟨-, hall, hend⟩ | ⟨-, hmore, hnext⟩ :=
    hdata.next hbpf hcount (t := { s with
      cursor := BitVec.ofNat 32 (s.cursor.toNat + s.chunk), fidx := BitVec.ofNat 32 (s.fidx.toNat + 1) })
      rfl rfl rfl rfl rfl
  · obtain ⟨-, heq⟩ | ⟨hne, -⟩ := hcases
    · rw [heq]
      exact .of_situation { h with } (.decCommit hm he rfl ⟨hlat, hcount, hend, by simpa [hall] using hholds⟩)
    · exact absurd hall hne
  · obtain ⟨heq, -⟩ | ⟨-, heq⟩ := hcases
    · omega
    · rw [heq]
      exact .of_situation { h with } (.decData hm he hp ⟨hlat, hcount, hnext, by simpa only [hsum] using hholds⟩)

/-- R173, R43.6: the bytes taken from the frame extend the payload in PBUF. -/
theorem Inv.execDecData {s t : State} (h : Inv s) (hm : s.mode = Mode.dec) (hp : s.phase = Phase.decData)
    (hx : execDecData s = .next t) : Inv t := by
  obtain ⟨c, hc, h0, rfl, -⟩ | ⟨F, -, ⟨c, hc, h0, rfl⟩ | ⟨-, -, hr, rfl⟩⟩ := execDecData_next hx
  · exact .failReader h.common (by constructor <;> simp) hc h0
  · exact .failReader h.common (by constructor <;> simp [h.fb_none]) hc h0
  · obtain ⟨hlat, hcount, hdata, hholds⟩ := h.dec_data hm hp
    have hwritten := hholds.writeBytes (unpackFrame F s.width.toNat s.chunk)
    rw [length_unpackFrame] at hwritten
    have hone : OneStore s { s.askNext.dropFb with
        pbuf := s.pbuf.writeBytes s.cursor.toNat (unpackFrame F s.width.toNat s.chunk) } :=
      .of_write (by simpa using hr) (by simp) rfl
    exact .advanceDecode
      (h.common.of_oneStore hone (by simpa using h.common.lastcmd_ne) rfl (by simpa using h.length_le))
      (by simpa using hm) (by simpa using h.errcode_zero (by rw [hm]; decide)) (by simpa using hp)
      (by simpa [Latched] using hlat) (by simpa [Counted] using hcount) (by simpa [AtData] using hdata)
      (by simp [State.chunk]) (by simpa using hwritten)

/-- R176, R43.7. -/
theorem Inv.execDecCommit {s t : State} (h : Inv s) (hm : s.mode = Mode.dec) (hp : s.phase = Phase.decCommit)
    (hx : execDecCommit s = .next t) : Inv t := by
  obtain ⟨B, -, ⟨-, rfl⟩ | ⟨-, rfl⟩⟩ := execDecCommit_next hx
  · exact .raise h.common (by constructor <;> simp) rfl (by decide)
  · obtain ⟨-, hcount, hend, -⟩ := h.dec_commit hm hp
    have k : SameOperands s { s.askCommit B with mode := Mode.done, phase := 0 } := by constructor <;> simp
    exact .of_situation (k.common h.common) (.done rfl rfl (by simpa using h.errcode_zero (by rw [hm]; decide))
      ⟨k.counted hcount, k.atEnd (by simp) (by simp) hend⟩)

/-- An engine step that STATUS[5:0] selects keeps the invariants. -/
theorem Inv.exec_engine {s t : State} {c : Instr} (h : Inv s) (hc : decodeSel s.selector = .ok c)
    (hx : exec c s = .next t) : Inv t := by
  obtain ⟨rfl, hm, hp⟩ | ⟨rfl, hm, hp⟩ | ⟨rfl, hm, hp⟩ | ⟨rfl, hm, hp⟩ | ⟨rfl, hm, hp⟩ |
    ⟨rfl, hm, hp⟩ | ⟨rfl, hm, hp⟩ := decodeSel_ok hc
  · exact h.execEncLoad hm hp hx
  · exact h.execEncMeta hm hp hx
  · exact h.execEncData hm hp hx
  · exact h.execEncFinish hm hp hx
  · exact h.execDecMeta hm hp hx
  · exact h.execDecData hm hp hx
  · exact h.execDecCommit hm hp hx

/-! ### Every step -/

/-- While no operation runs the configuration registers may take any value: no invariant asks anything of them. -/
theorem Inv.with_config {s : State} (h : Inv s) (hm : modeIdle s.mode = true) (w l : BitVec 16) (r : Word) :
    Inv { s with width := w, height := l, rate := r } := by
  have hne : s.mode ≠ Mode.enc ∧ s.mode ≠ Mode.dec := by
    obtain hm | hm | hm := (modeIdle_iff _).1 hm <;> rw [hm] <;> decide
  exact { h with
    enc_rate := fun hm => absurd hm hne.1
    enc_latched := fun hm => absurd hm hne.1
    dec_data := fun hm => absurd hm hne.2
    dec_commit := fun hm => absurd hm hne.2 }

/-- R53, R54: a write of any word but CMD. -/
theorem Inv.writeWord {s : State} (h : Inv s) (i : Index) (v : Word) : Inv (s.writeWord i v) := by
  unfold State.writeWord
  split
  case h_4 => exact h
  all_goals split
  case h_1.isTrue hm => exact h.with_config hm (v.setWidth 16) s.height s.rate
  case h_2.isTrue hm => exact h.with_config hm s.width (v.setWidth 16) s.rate
  case h_3.isTrue hm => exact h.with_config hm s.width s.height v
  all_goals exact h

/-- Settles O46: each turn of `step_next` keeps the invariants, whatever turns are still to come. -/
theorem stepKeepsInvariants : Obligations.StepKeepsInvariants := by
  intro s t h hstep
  obtain ⟨rest, -, rfl⟩ | ⟨-, rest, hturn⟩ := step_next hstep
  · exact .resetBlock h.params_legal
  · have hrest : Inv { s with sched := rest } := { h with }
    obtain ⟨i, -, rfl⟩ | ⟨v, c, -, hc, hx⟩ | ⟨v, r, -, -, rfl⟩ | ⟨i, v, -, -, rfl⟩ |
      ⟨-, ⟨c, hc, hx⟩ | ⟨-, rfl⟩⟩ := hturn
    · exact { h with }
    · exact hrest.exec_command hc hx
    · exact hrest.with_lastcmd (by decide)
    · exact hrest.writeWord i v
    · exact hrest.exec_engine hc hx
    · exact hrest

end Sys2Proof.Machine

/-! PROOF. FIDX and CURSOR within an operation (R40, R41). -/

namespace Sys2Proof.Machine

/-- From s to t CURSOR and FIDX do not decrease, and FIDX grows by at most 1. -/
structure Advances (s t : State) : Prop where
  cursor_le : s.cursor.toNat ≤ t.cursor.toNat
  fidx_le : s.fidx.toNat ≤ t.fidx.toNat
  fidx_succ : t.fidx.toNat ≤ s.fidx.toNat + 1

theorem Advances.of_unchanged {s t : State} (hc : t.cursor = s.cursor) (hf : t.fidx = s.fidx) : Advances s t := by
  constructor <;> simp [hc, hf]

/-- R143, R170: FIDX counts the metadata frame. -/
theorem Advances.of_first {s t : State} (hc : t.cursor = s.cursor) (h0 : s.fidx = 0) (h1 : t.fidx = 1) :
    Advances s t := by
  constructor <;> simp [hc, h0, h1]

/-- R146, R173: a data step, whose sums do not wrap. -/
theorem Advances.of_data {s t : State} (hb : 32 ≤ s.bpf.toNat) (hcount : Counted s) (hdata : AtData s)
    (hc : t.cursor = BitVec.ofNat 32 (s.cursor.toNat + s.chunk)) (hf : t.fidx = BitVec.ofNat 32 (s.fidx.toNat + 1)) :
    Advances s t := by
  obtain ⟨hfitc, hfitf⟩ := hdata.sums_fit hb hcount
  rw [← hc] at hfitc
  rw [← hf] at hfitf
  constructor <;> omega

/-! ### The effects that move neither -/

@[simp] theorem State.writeWord_cursor (s : State) (i : Index) (v : Word) : (s.writeWord i v).cursor = s.cursor := by
  unfold State.writeWord
  split
  case h_4 => rfl
  all_goals split <;> rfl

@[simp] theorem State.writeWord_fidx (s : State) (i : Index) (v : Word) : (s.writeWord i v).fidx = s.fidx := by
  unfold State.writeWord
  split
  case h_4 => rfl
  all_goals split <;> rfl

@[simp] theorem abortEffect_cursor (s : State) : (abortEffect s).cursor = s.cursor := by
  obtain ⟨-, -, h⟩ | ⟨-, -, h⟩ | ⟨-, -, h⟩ | ⟨-, -, h⟩ | ⟨-, -, h⟩ := abortEffect_cases s <;> simp [h]

@[simp] theorem abortEffect_fidx (s : State) : (abortEffect s).fidx = s.fidx := by
  obtain ⟨-, -, h⟩ | ⟨-, -, h⟩ | ⟨-, -, h⟩ | ⟨-, -, h⟩ | ⟨-, -, h⟩ := abortEffect_cases s <;> simp [h]

/-! ### What the two decode steps set them to -/

@[simp] theorem latchHeader_cursor (s : State) (F : Frame) : (latchHeader s F).cursor = s.cursor := by
  obtain ⟨t, rfl, ⟨-, h⟩ | ⟨-, h⟩⟩ := latchHeader_cases s F <;> simp [h]

@[simp] theorem latchHeader_fidx (s : State) (F : Frame) : (latchHeader s F).fidx = 1 := by
  obtain ⟨t, rfl, ⟨-, h⟩ | ⟨-, h⟩⟩ := latchHeader_cases s F <;> simp [h]

@[simp] theorem advanceDecode_cursor (s : State) (m : Nat) :
    (advanceDecode s m).cursor = BitVec.ofNat 32 (s.cursor.toNat + m) := by
  obtain ⟨t, rfl, ⟨-, h⟩ | ⟨-, h⟩⟩ := advanceDecode_cases s m <;> simp [h]

@[simp] theorem advanceDecode_fidx (s : State) (m : Nat) :
    (advanceDecode s m).fidx = BitVec.ofNat 32 (s.fidx.toNat + 1) := by
  obtain ⟨t, rfl, ⟨-, h⟩ | ⟨-, h⟩⟩ := advanceDecode_cases s m <;> simp [h]

/-! ### Instructions -/

/-- A START and a CLEAR are refused within an operation (R201), and ABORT leaves the registers (R210). -/
theorem exec_command_advances {s t : State} {v : Word} {c : Instr} (hm : s.mode = 1 ∨ s.mode = 2)
    (hc : decodeCmd v = .ok c) (hx : exec c s = .next t) : Advances s t := by
  have hrun : ¬ modeIdle s.mode = true := by obtain hm | hm := hm <;> rw [hm] <;> decide
  obtain rfl | rfl | rfl | rfl := decodeCmd_ok hc
  · obtain ⟨hidle, -⟩ | ⟨-, rfl⟩ := execEncStart_next hx
    · exact absurd hidle hrun
    · exact .of_unchanged rfl rfl
  · obtain ⟨hidle, -⟩ | ⟨-, rfl⟩ := execDecStart_next hx
    · exact absurd hidle hrun
    · exact .of_unchanged rfl rfl
  · obtain rfl := execAbort_next hx
    exact .of_unchanged (abortEffect_cursor s) (abortEffect_fidx s)
  · obtain ⟨hidle, -⟩ | ⟨-, rfl⟩ := execClear_next hx
    · exact absurd hidle hrun
    · exact .of_unchanged rfl rfl

/-- R40, R41: only ENC_META, DEC_META and the data steps move FIDX, and only the data steps CURSOR. -/
theorem Inv.exec_engine_advances {s t : State} {c : Instr} (h : Inv s) (hc : decodeSel s.selector = .ok c)
    (hx : exec c s = .next t) : Advances s t := by
  obtain ⟨rfl, hm, hp⟩ | ⟨rfl, hm, hp⟩ | ⟨rfl, hm, hp⟩ | ⟨rfl, hm, hp⟩ | ⟨rfl, hm, hp⟩ |
    ⟨rfl, hm, hp⟩ | ⟨rfl, hm, hp⟩ := decodeSel_ok hc
  · obtain ⟨c, -, -, rfl⟩ | ⟨B, -, -, -, rfl⟩ := execEncLoad_next hx <;> exact .of_unchanged (by simp) (by simp)
  · obtain ⟨-, -, hfidx, -⟩ := h.enc_meta hm hp
    obtain ⟨-, rfl⟩ | ⟨-, u, rfl, ⟨-, rfl⟩ | ⟨-, rfl⟩⟩ := execEncMeta_next hx
    · exact .of_unchanged (by simp) (by simp)
    · exact .of_unchanged (by simp) (by simp)
    · exact .of_first (by simp) hfidx rfl
  · obtain ⟨hcount, hdata, -⟩ := h.enc_data hm hp
    obtain ⟨B, -, ⟨-, rfl⟩ | ⟨-, rfl⟩⟩ := execEncData_next hx
    · exact .of_unchanged (by simp) (by simp)
    · exact .of_data ((h.enc_latched hm).le_bpf h.params_legal) hcount hdata rfl rfl
  · obtain ⟨-, rfl⟩ | ⟨-, rfl⟩ := execEncFinish_next hx <;> exact .of_unchanged (by simp) (by simp)
  · obtain ⟨-, -, -, hfidx, -⟩ := h.dec_meta hm hp
    obtain ⟨c, -, -, rfl, -⟩ | ⟨F, -, ⟨c, -, -, rfl⟩ | ⟨-, -, rfl⟩⟩ := execDecMeta_next hx
    · exact .of_unchanged (by simp) (by simp)
    · exact .of_unchanged (by simp) (by simp)
    · exact .of_first (by simp) hfidx (latchHeader_fidx _ F)
  · obtain ⟨hlat, hcount, hdata, -⟩ := h.dec_data hm hp
    obtain ⟨c, -, -, rfl, -⟩ | ⟨F, -, ⟨c, -, -, rfl⟩ | ⟨-, -, -, rfl⟩⟩ := execDecData_next hx
    · exact .of_unchanged (by simp) (by simp)
    · exact .of_unchanged (by simp) (by simp)
    · exact .of_data (hlat.le_bpf h.params_legal) hcount hdata (by simp) (by simp)
  · obtain ⟨B, -, ⟨-, rfl⟩ | ⟨-, rfl⟩⟩ := execDecCommit_next hx <;> exact .of_unchanged (by simp) (by simp)

/-- Settles O54: a Host turn moves neither register while an operation runs, and an engine step only forward. -/
theorem cursorNeverDecreases : Obligations.CursorNeverDecreases := by
  intro s t h hreset hrun hstep
  suffices hadv : Advances s t from ⟨hadv.cursor_le, hadv.fidx_le, hadv.fidx_succ⟩
  obtain ⟨rest, hs, -⟩ | ⟨-, rest, hturn⟩ := step_next hstep
  · simp [State.resets, hs] at hreset
  · have hrest : Inv { s with sched := rest } := { h with }
    obtain ⟨i, -, rfl⟩ | ⟨v, c, hs, hc, hx⟩ | ⟨v, r, -, -, rfl⟩ | ⟨i, v, -, -, rfl⟩ |
      ⟨-, ⟨c, hc, hx⟩ | ⟨-, rfl⟩⟩ := hturn
    · exact .of_unchanged rfl rfl
    · have hm : s.mode = 1 ∨ s.mode = 2 := by simpa [EngineMoves, hs] using hrun
      exact { exec_command_advances (s := { s with sched := rest }) hm hc hx with }
    · exact .of_unchanged rfl rfl
    · exact .of_unchanged (by simp) (by simp)
    · exact { hrest.exec_engine_advances hc hx with }
    · exact .of_unchanged rfl rfl

end Sys2Proof.Machine

/-! PROOF. The payload buffer by its two rules (R56, R57). -/

namespace Sys2Proof.Machine

/-! ### Where MemRead faults -/

/-- R56: a range not inside PBUF. -/
theorem State.memRead_outOfRange {s : State} {a n : Nat} (h : s.params.pbufSize < a + n) :
    s.memRead a n = .error .pbufOutOfRange := by
  unfold State.memRead
  rw [if_neg (by omega)]

/-- R42, R56: a cell of the range that holds no value. -/
theorem State.memRead_noValue {s : State} {a n k : Nat} (hr : a + n ≤ s.params.pbufSize) (hk : k < n)
    (h : s.pbuf.read (a + k) = none) : s.memRead a n = .error .pbufNoValue := by
  have hnone : s.pbuf.readBytes a n = none := by
    by_contra hsome
    have hcell := (Memory.readBytes_isSome s.pbuf a n).1 (Option.isSome_iff_ne_none.2 hsome) k hk
    simp [h] at hcell
  unfold State.memRead
  rw [if_pos hr, hnone]

/-- Settles O43: the bytes exist because each cell holds one, and a cell without one leaves no bytes to answer. -/
theorem memReadByItsRule : Obligations.MemReadByItsRule := by
  intro s a n
  refine ⟨fun hr hcells => ?_, fun hr ⟨k, hk, hnone⟩ => State.memRead_noValue hr hk hnone, State.memRead_outOfRange⟩
  obtain ⟨B, hB⟩ := Option.isSome_iff_exists.1 ((Memory.readBytes_isSome s.pbuf a n).2 hcells)
  obtain ⟨hlen, hbytes⟩ := (Memory.readBytes_eq_some s.pbuf a n B).1 hB
  exact ⟨B, (State.memRead_eq_ok s a n B).2 ⟨hr, hB⟩, hlen, fun k hk => (hbytes k hk).symm⟩

/-- Settles O42: the three facts about `writeBytes`, which is what MemWrite does to PBUF inside its range. -/
theorem memWriteByItsRule : Obligations.MemWriteByItsRule := by
  intro s a B hr
  exact ⟨_, (State.memWrite_eq_ok s _ a B).2 ⟨hr, rfl⟩, fun k hk => s.pbuf.read_writeBytes_inside a k B hk,
    fun x hx => s.pbuf.read_writeBytes_outside a x B hx, s.pbuf.writeBytes_wf a B⟩

end Sys2Proof.Machine

/-! PROOF. The event history only grows (R69), by at most three events a step (R151). -/

namespace Sys2Proof.Machine

/-! ### What each effect emits -/

@[simp] theorem State.writeWord_hist (s : State) (i : Index) (v : Word) : (s.writeWord i v).hist = s.hist := by
  unfold State.writeWord
  split
  case h_4 => rfl
  all_goals split <;> rfl

@[simp] theorem encStartEffect_hist (s : State) : (encStartEffect s).hist = s.hist := by
  obtain ⟨-, h⟩ | ⟨-, -, h⟩ | ⟨-, -, h⟩ := encStartEffect_cases s <;> simp [h]

@[simp] theorem clearEffect_hist (s : State) : (clearEffect s).hist = s.hist := by
  unfold clearEffect; split <;> rfl

/-- R31: the writer is open in an encode only. -/
theorem State.vwOpen_eq_false {s : State} (h : s.mode ≠ Mode.enc) : s.vwOpen = false := by
  rw [State.vwOpen, beq_false_of_ne h, Bool.false_and]

/-- R32: the reader is held in a decode only. -/
theorem State.vrHeld_eq_false {s : State} (h : s.mode ≠ Mode.dec) : s.vrHeld = false := by
  rw [State.vrHeld, beq_false_of_ne h, Bool.false_and]

/-- R210: ABORT discards an open writer or releases a held reader. -/
theorem abortEffect_hist (s : State) :
    (abortEffect s).hist =
      s.hist ++ if s.vwOpen then [.vwDiscard] else if s.vrHeld then [.vrRelease] else [] := by
  obtain ⟨hm, hv, h⟩ | ⟨hm, hv, h⟩ | ⟨hm, hv, h⟩ | ⟨hm, hv, h⟩ | ⟨he, hd, h⟩ := abortEffect_cases s <;> rw [h]
  · simp [hv]
  · simp [hv, State.vrHeld, hm]
  · simp [hv, State.vwOpen, hm]
  · simp [hv, State.vwOpen, hm]
  · simp [State.vwOpen_eq_false he, State.vrHeld_eq_false hd]

/-- R170: a header of 0 releases the reader at once. -/
theorem latchHeader_hist (s : State) (F : Frame) :
    (latchHeader s F).hist = s.hist ++ if decodeMetadata F = 0 then [.vrRelease] else [] := by
  obtain ⟨t, rfl, ⟨hz, h⟩ | ⟨hz, h⟩⟩ := latchHeader_cases s F
  · rw [h, if_pos hz]; rfl
  · rw [h, if_neg hz, List.append_nil]

/-- R173: the last payload byte releases the reader. -/
theorem advanceDecode_hist (s : State) (m : Nat) :
    (advanceDecode s m).hist = s.hist ++ if s.cursor.toNat + m = s.length.toNat then [.vrRelease] else [] := by
  obtain ⟨t, rfl, ⟨hc, h⟩ | ⟨hc, h⟩⟩ := advanceDecode_cases s m
  · rw [h, if_pos hc]; rfl
  · rw [h, if_neg hc, List.append_nil]

/-! ### At most three events -/

/-- From s to t the history grows at its end, by at most three events. -/
structure Records (s t : State) : Prop where
  hist_grows : s.hist <+: t.hist
  length_le : t.hist.length ≤ s.hist.length + 3

theorem Records.of_unchanged {s t : State} (h : t.hist = s.hist) : Records s t := by
  constructor <;> simp [h]

theorem Records.of_events {s t : State} {es : List Event} (h : t.hist = s.hist ++ es) (hes : es.length ≤ 3) :
    Records s t := by
  constructor <;> simp [h, hes]

/-- The turns to come are no events. -/
theorem Records.of_sched {s t : State} {l : List Turn} (h : Records { s with sched := l } t) : Records s t :=
  ⟨h.hist_grows, h.length_le⟩

/-! ### Commands -/

theorem execEncStart_records {s t : State} (h : execEncStart s = .next t) : Records s t := by
  obtain ⟨-, rfl⟩ | ⟨-, rfl⟩ := execEncStart_next h
  · exact .of_unchanged (encStartEffect_hist s)
  · exact .of_unchanged rfl

theorem execDecStart_records {s t : State} (h : execDecStart s = .next t) : Records s t := by
  obtain ⟨-, rfl⟩ | ⟨-, rfl⟩ := execDecStart_next h <;> exact .of_unchanged rfl

theorem execAbort_records {s t : State} (h : execAbort s = .next t) : Records s t := by
  obtain rfl := execAbort_next h
  refine .of_events (abortEffect_hist s) ?_
  split_ifs <;> simp

theorem execClear_records {s t : State} (h : execClear s = .next t) : Records s t := by
  obtain ⟨-, rfl⟩ | ⟨-, rfl⟩ := execClear_next h
  · exact .of_unchanged (clearEffect_hist s)
  · exact .of_unchanged rfl

/-! ### Encoder steps -/

theorem execEncLoad_records {s t : State} (h : execEncLoad s = .next t) : Records s t := by
  obtain ⟨c, -, -, rfl⟩ | ⟨B, -, -, -, rfl⟩ := execEncLoad_next h <;> constructor <;> simp

/-- R143: the one step that may emit three events, BEGIN, PUT and DISCARD. -/
theorem execEncMeta_records {s t : State} (h : execEncMeta s = .next t) : Records s t := by
  obtain ⟨-, rfl⟩ | ⟨-, u, rfl, ⟨-, rfl⟩ | ⟨-, rfl⟩⟩ := execEncMeta_next h <;> constructor <;> simp

theorem execEncData_records {s t : State} (h : execEncData s = .next t) : Records s t := by
  obtain ⟨B, -, ⟨-, rfl⟩ | ⟨-, rfl⟩⟩ := execEncData_next h <;> constructor <;> simp

theorem execEncFinish_records {s t : State} (h : execEncFinish s = .next t) : Records s t := by
  obtain ⟨-, rfl⟩ | ⟨-, rfl⟩ := execEncFinish_next h <;> constructor <;> simp

/-! ### Decoder steps -/

theorem execDecMeta_records {s t : State} (h : execDecMeta s = .next t) : Records s t := by
  obtain ⟨c, -, -, rfl, -⟩ | ⟨F, -, ⟨c, -, -, rfl⟩ | ⟨-, -, rfl⟩⟩ := execDecMeta_next h
  · constructor <;> simp
  · constructor <;> simp
  · constructor <;> rw [latchHeader_hist] <;> split_ifs <;> simp

theorem execDecData_records {s t : State} (h : execDecData s = .next t) : Records s t := by
  obtain ⟨c, -, -, rfl, -⟩ | ⟨F, -, ⟨c, -, -, rfl⟩ | ⟨-, -, -, rfl⟩⟩ := execDecData_next h
  · constructor <;> simp
  · constructor <;> simp
  · constructor <;> rw [advanceDecode_hist] <;> split_ifs <;> simp

theorem execDecCommit_records {s t : State} (h : execDecCommit s = .next t) : Records s t := by
  obtain ⟨B, -, ⟨-, rfl⟩ | ⟨-, rfl⟩⟩ := execDecCommit_next h <;> constructor <;> simp

/-! ### Every instruction, every step but a reset -/

theorem exec_records {c : Instr} {s t : State} (h : exec c s = .next t) : Records s t := by
  cases c with
  | encStart => exact execEncStart_records h
  | decStart => exact execDecStart_records h
  | abort => exact execAbort_records h
  | clear => exact execClear_records h
  | encLoad => exact execEncLoad_records h
  | encMeta => exact execEncMeta_records h
  | encData => exact execEncData_records h
  | encFinish => exact execEncFinish_records h
  | decMeta => exact execDecMeta_records h
  | decData => exact execDecData_records h
  | decCommit => exact execDecCommit_records h

theorem step_records {s t : State} (hreset : s.resets = false) (h : step s = .next t) : Records s t := by
  obtain ⟨rest, hs, -⟩ | ⟨-, rest, hturn⟩ := step_next h
  · simp [State.resets, hs] at hreset
  · obtain ⟨i, -, rfl⟩ | ⟨v, c, -, -, hx⟩ | ⟨v, r, -, -, rfl⟩ | ⟨i, v, -, -, rfl⟩ | ⟨-, ⟨c, -, hx⟩ | ⟨-, rfl⟩⟩ := hturn
    · exact .of_unchanged rfl
    · exact (exec_records hx).of_sched
    · exact .of_unchanged rfl
    · exact .of_unchanged (State.writeWord_hist _ i v)
    · exact (exec_records hx).of_sched
    · exact .of_unchanged rfl

/-- Settles O52: only an instruction emits, and none more than three events. -/
theorem historyOnlyGrows : Obligations.HistoryOnlyGrows := by
  intro s t hreset hstep
  obtain ⟨⟨es, hes⟩, hlen⟩ := step_records hreset hstep
  refine ⟨es, hes.symm, ?_⟩
  simpa [← hes] using hlen

end Sys2Proof.Machine

/-! PROOF. The register port: what a Host transaction reads and writes (R52, R53, R54). -/

namespace Sys2Proof.Machine

/-! ### The words a Host reads -/

@[simp] theorem State.readWord_sched (s : State) (l : List Turn) (i : Index) :
    State.readWord { s with sched := l } i = s.readWord i := rfl

/-- R54. -/
theorem State.readWord_reserved (s : State) {i : Index} (hi : 10 ≤ i.toNat) : s.readWord i = 0 := by
  unfold State.readWord
  split
  case h_11 => rfl
  all_goals omega

/-! ### The words a Host writes -/

/-- R53, R54: word 1 and the words from 5 on are read-only or reserved. -/
theorem State.writeWord_ignored (s : State) {i : Index} (hi : i = 1 ∨ 5 ≤ i.toNat) (v : Word) :
    s.writeWord i v = s := by
  have hval : i.toNat = 1 ∨ 5 ≤ i.toNat := hi.imp_left fun h => by rw [h]; rfl
  unfold State.writeWord
  split
  case h_4 => rfl
  all_goals omega

/-- R53: while an operation runs no word but CMD takes a value. -/
theorem State.writeWord_running (s : State) (hm : modeIdle s.mode = false) (i : Index) (v : Word) :
    s.writeWord i v = s := by
  unfold State.writeWord
  split
  case h_4 => rfl
  all_goals exact if_neg (by simp [hm])

section
variable (s : State) (hm : modeIdle s.mode = true) (v : Word)
include hm

/-- R53: WIDTH, HEIGHT and RATE take the written value while no operation runs. -/
theorem State.writeWord_width : s.writeWord 2 v = { s with width := v.extractLsb' 0 16 } :=
  (if_pos hm).trans (by rw [BitVec.setWidth_eq_extractLsb' (by decide)])

theorem State.writeWord_height : s.writeWord 3 v = { s with height := v.extractLsb' 0 16 } :=
  (if_pos hm).trans (by rw [BitVec.setWidth_eq_extractLsb' (by decide)])

theorem State.writeWord_rate : s.writeWord 4 v = { s with rate := v } := if_pos hm

end

/-! ### The Host's turns -/

section
variable {s : State} {i : Index} {v : Word} {rest : List Turn} (hf : s.heldFault = none)
include hf

/-- R52. -/
theorem step_read (hs : s.sched = .read i :: rest) :
    step s = .next { s with sched := rest, reads := s.reads ++ [s.readWord i] } := by
  simp [step, takeTurn, hs, hostRead, hf]

/-- R82, R200. -/
theorem step_command {c : Instr} (hs : s.sched = .write 0 v :: rest) (hc : decodeCmd v = .ok c) :
    step s = exec c { s with sched := rest } := by
  simp [step, takeTurn, hs, hostWrite, hf, hc]

/-- R84. -/
theorem step_illegal {r : Reject} (hs : s.sched = .write 0 v :: rest) (hc : decodeCmd v = .error r) :
    step s = .next { s with sched := rest, lastcmd := LastCmd.illegal } := by
  simp [step, takeTurn, hs, hostWrite, hf, hc]

/-- R53: a write of any word but CMD. -/
theorem step_writeWord (hs : s.sched = .write i v :: rest) (hi : i ≠ 0) :
    step s = .next (State.writeWord { s with sched := rest } i v) := by
  simp only [step, takeTurn, hs, hostWrite, State.heldFault_sched, hf, if_neg hi]

/-- R53, R54. -/
theorem step_write_ignored (hs : s.sched = .write i v :: rest) (hi : i = 1 ∨ 5 ≤ i.toNat) :
    step s = .next { s with sched := rest } := by
  have hi0 : i ≠ 0 := by rintro rfl; exact absurd hi (by decide)
  rw [step_writeWord hf hs hi0, State.writeWord_ignored _ hi]

end

/-! ### The statements of the register port -/

/-- Settles O7: the value is `readWord i`, which is a literal case of its definition at each index. -/
theorem registerReads : Obligations.RegisterReads := by
  intro s i rest hf hs
  refine ⟨s.readWord i, step_read hf hs, ?_, ?_, ?width, ?height, ?_, ?_, ?_, ?_, ?_, ?_, ?reserved⟩
  case width => rintro rfl; exact BitVec.toNat_setWidth_of_le (by decide)
  case height => rintro rfl; exact BitVec.toNat_setWidth_of_le (by decide)
  case reserved => exact s.readWord_reserved
  all_goals rintro rfl; rfl

/-- Settles O9: word 0 by what v decodes to, every other word by `writeWord`. -/
theorem registerWrites : Obligations.RegisterWrites := by
  intro s i v rest hf hs
  refine ⟨fun hm => ?idle, fun hm hi => ?running, step_write_ignored hf hs, ?command, ?illegal⟩
  case idle =>
    have hidle := (modeIdle_iff s.mode).2 hm
    refine ⟨?_, ?_, ?_⟩ <;> rintro rfl <;> rw [step_writeWord hf hs (by decide)]
    · rw [State.writeWord_width { s with sched := rest } hidle]
    · rw [State.writeWord_height { s with sched := rest } hidle]
    · rw [State.writeWord_rate { s with sched := rest } hidle]
  case running =>
    have hrun : modeIdle s.mode = false := by obtain hm | hm := hm <;> rw [hm] <;> decide
    have hi0 : i ≠ 0 := by obtain rfl | rfl | rfl := hi <;> decide
    rw [step_writeWord hf hs hi0, State.writeWord_running { s with sched := rest } hrun]
  case command => rintro rfl c hc; exact step_command hf hs hc
  case illegal =>
    rintro rfl hnone
    cases hd : decodeCmd v with
    | ok c => exact absurd hd (hnone c)
    | error r => exact step_illegal hf hs hd

/-- Settles O10: a reserved word is 0 to `readWord` and nothing to `writeWord`. -/
theorem reservedWordsInert : Obligations.ReservedWordsInert := by
  intro s i rest hf hi
  refine ⟨fun hs => ?_, fun v hs => step_write_ignored hf hs (.inr (by omega))⟩
  rw [step_read hf hs, s.readWord_reserved hi]

end Sys2Proof.Machine

/-! PROOF. The encoding: the decoder and the encoder are inverse (R82, R86), and what the Host's write to CMD and the
Engine's turn do with the word they decode (R84, R86). -/

namespace Sys2Proof.Machine

/-! ### The decoder and the encoder -/

theorem decode_encode (i : Instr) : decode (encode i) = .ok i := by
  cases i <;> rfl

theorem encode_of_decodeCmd {v : Word} {i : Instr} (h : decodeCmd v = .ok i) : encode i = .cmd v := by
  unfold decodeCmd at h
  split_ifs at h with hv hv hv hv <;> cases h <;> rw [hv] <;> rfl

theorem encode_of_decodeSel {x : Selector} {i : Instr} (h : decodeSel x = .ok i) : encode i = .sel x := by
  unfold decodeSel at h
  split_ifs at h with hx hx hx hx hx hx hx <;> cases h <;> rw [hx] <;> rfl

/-- R82, R86: an instruction's own word is the only one that decodes to it. -/
theorem decode_eq_ok_iff (e : Encoded) (i : Instr) : decode e = .ok i ↔ encode i = e := by
  constructor
  · intro h
    cases e with
    | cmd v => exact encode_of_decodeCmd h
    | sel x => exact encode_of_decodeSel h
  · rintro rfl
    exact decode_encode i

theorem decodeCmd_eq_ok_iff (v : Word) (i : Instr) : decodeCmd v = .ok i ↔ encode i = .cmd v :=
  decode_eq_ok_iff (.cmd v) i

/-- R84. -/
theorem decodeCmd_illegal {v : Word} (h : v ∉ [0x00000001, 0x00000002, 0x00000003, 0x00000004]) :
    decodeCmd v = .error .illegalCommand := by
  simp only [List.mem_cons, List.not_mem_nil, or_false, not_or] at h
  obtain ⟨h1, h2, h3, h4⟩ := h
  rw [decodeCmd, if_neg h1, if_neg h2, if_neg h3, if_neg h4]

/-! ### The selector -/

/-- R86: S = MODE + 8 * PHASE. -/
theorem State.selector_toNat (s : State) : s.selector.toNat = s.mode.toNat + 8 * s.phase.toNat := by
  rw [State.selector, BitVec.toNat_append, ← Nat.shiftLeft_add_eq_or_of_lt s.mode.isLt, Nat.shiftLeft_eq]
  omega

/-- R26, R86: S = STATUS[5:0]. -/
theorem State.selector_eq_status (s : State) : s.selector = s.status.extractLsb' 0 6 := by
  have hm := s.mode.isLt; have hp := s.phase.isLt
  have hs := s.status_toNat
  refine (extractLsb'_eq_of_toNat ?_).symm
  rw [s.selector_toNat]
  omega

/-- R28, R86: the held pairs are the seven of the table and those of IDLE, DONE and ERROR. -/
theorem State.pairHeld_iff_selector (s : State) :
    pairHeld s.mode s.phase = true ↔
      s.selector ∈ [0x01, 0x09, 0x11, 0x19, 0x02, 0x0A, 0x12, 0x00, 0x03, 0x04] := by
  have key : ∀ m p : BitVec 3, pairHeld m p = true ↔
      p ++ m ∈ ([0x01, 0x09, 0x11, 0x19, 0x02, 0x0A, 0x12, 0x00, 0x03, 0x04] : List Selector) := by decide
  exact key s.mode s.phase

theorem State.heldFault_neverHeldPair {s : State} (h : pairHeld s.mode s.phase = false) :
    s.heldFault = some .neverHeldPair :=
  if_pos h

/-! ### The Engine's turn -/

section
variable {s : State} {rest : List Turn} (h : EngineMoves s rest)
include h

/-- R72: a turn laid down for the Engine, or none laid down at all. -/
theorem step_engineMoves : step s = engineTurn { s with sched := rest } := by
  obtain hs | ⟨hs, rfl⟩ := h
  · rw [step, takeTurn, hs]
  · rw [step, takeTurn, hs]
    exact congrArg (fun l => engineTurn { s with sched := l }) hs

/-- R86: the selected step runs. -/
theorem step_engine {c : Instr} (hf : s.heldFault = none) (hc : decodeSel s.selector = .ok c) :
    step s = exec c { s with sched := rest } := by
  simp only [step_engineMoves h, engineTurn, State.heldFault_sched, State.selector_sched, hf, hc]

/-- R86, R249: no step is selected, and the turn passes. -/
theorem step_engine_passes (hf : s.heldFault = none) (hc : decodeSel s.selector = .error .noEngineStep) :
    step s = .next { s with sched := rest } := by
  simp only [step_engineMoves h, engineTurn, State.heldFault_sched, State.selector_sched, hf, hc]

/-- R250: a state that holds a value never held. -/
theorem step_engine_heldFault {f : Fault} (hf : s.heldFault = some f) : step s = .fault f := by
  simp only [step_engineMoves h, engineTurn, State.heldFault_sched, hf]

end

/-! ### The statements of the encoding -/

/-- Settles O4: S is a field of STATUS, a value of the table is some instruction's word, and any other value is of a
pair never held. -/
theorem engineStepSelection : Obligations.EngineStepSelection := by
  intro s rest hturn
  refine ⟨s.selector_toNat, s.selector_eq_status, fun hf => ?held, fun hx => ?neverHeld⟩
  case held =>
    have runs (i : Instr) (hx : encode i = .sel s.selector) : step s = exec i { s with sched := rest } :=
      step_engine hturn hf ((decode_eq_ok_iff (.sel s.selector) i).2 hx)
    refine ⟨fun hx => runs .encLoad ?_, fun hx => runs .encMeta ?_, fun hx => runs .encData ?_,
      fun hx => runs .encFinish ?_, fun hx => runs .decMeta ?_, fun hx => runs .decData ?_,
      fun hx => runs .decCommit ?_, fun hx => step_engine_passes hturn hf ?passes⟩
    case passes => obtain hx | hx | hx := hx <;> rw [hx] <;> rfl
    all_goals rw [hx]; rfl
  case neverHeld =>
    have hpair : pairHeld s.mode s.phase = false := Bool.eq_false_iff.2 (mt s.pairHeld_iff_selector.1 hx)
    exact step_engine_heldFault hturn (State.heldFault_neverHeldPair hpair)

/-- Settles O1: each literal is an instruction's own word; the last two first pass the length check of a table row. -/
theorem tableWordsDecode : Obligations.TableWordsDecode :=
  ⟨decode_encode .encStart, decode_encode .abort, decode_encode .encData, decode_encode .encFinish,
    decode_encode .decMeta, decode_encode .decCommit, by decide, by decide⟩

/-- Settles O2: no instruction has an operand field that could be ill formed. -/
theorem encodedInstructionDecodes : Obligations.EncodedInstructionDecodes := by
  intro i
  refine ⟨?_, decode_encode i, fun e he => ((decode_eq_ok_iff e i).1 he).symm⟩
  cases i <;> rfl

/-- Settles O3: v selects a command exactly when that command's encoding is v. -/
theorem commandWordsOfTheTable : Obligations.CommandWordsOfTheTable := by
  intro v
  refine ⟨?_, ?_, ?_, ?_, fun i => (decodeCmd_eq_ok_iff v i).1⟩
  all_goals rw [decodeCmd_eq_ok_iff, encode, Encoded.cmd.injEq, eq_comm]

/-- Settles O6: the Engine decodes the selector it reads. -/
theorem engineTurnRunsInstruction : Obligations.EngineTurnRunsInstruction :=
  fun _ _ _ hf hturn hc _ => step_engine hturn hf hc

/-- Settles O11: no value but the four decodes, and the write of an illegal word sets LASTCMD only. -/
theorem illegalCommandWord : Obligations.IllegalCommandWord :=
  fun _ _ _ hf hs hv => step_illegal hf hs (decodeCmd_illegal hv)

end Sys2Proof.Machine

/-! PROOF. The frame codec: bytes and their pixels (R107, R108), where a frame byte lies (R103), and what a packed and
an unpacked frame hold (R109 to R116). -/

namespace Sys2Proof.Machine

/-! ### One byte -/

theorem getElem?_encodeByte (b : Byte) {j : Nat} (hj : j < 8) : (encodeByte b)[j]? = some (b.getLsbD j) :=
  getElem?_bitsOf 8 b.toNat j hj

theorem getD_encodeByte (b : Byte) {j : Nat} (hj : j < 8) : (encodeByte b).getD j false = b.getLsbD j :=
  getD_bitsOf 8 b.toNat j hj

theorem getLsbD_decodeByte (p : List Bool) {j : Nat} (hj : j < 8) : (decodeByte p).getLsbD j = p.getD j false := by
  rw [decodeByte, BitVec.getLsbD_ofNat, testBit_bitsToNat, decide_eq_true hj, Bool.true_and]

theorem decodeByte_encodeByte (b : Byte) : decodeByte (encodeByte b) = b :=
  BitVec.eq_of_getLsbD_eq fun _ hj => (getLsbD_decodeByte _ hj).trans (getD_encodeByte b hj)

theorem encodeByte_decodeByte {p : List Bool} (hp : p.length = 8) : encodeByte (decodeByte p) = p := by
  refine List.ext_getElem? fun j => ?_
  by_cases hj : j < 8
  · rw [getElem?_encodeByte _ hj, getLsbD_decodeByte p hj, List.getD_eq_getElem?_getD,
      List.getElem?_eq_getElem (hp ▸ hj), Option.getD_some]
  · rw [List.getElem?_eq_none (by simpa using hj), List.getElem?_eq_none (by omega)]

/-- Settles O31: bit j of the byte is item j of the list, in both directions. -/
theorem byteCodecIsBijection : Obligations.ByteCodecIsBijection :=
  ⟨length_encodeByte, fun b _ => getElem?_encodeByte b, decodeByte_encodeByte, fun _ => encodeByte_decodeByte⟩

/-! ### Where a frame byte lies -/

/-- R103: BPF = BPW * H when the width is a multiple of 8. -/
theorem bytesPerFrame_eq_mul {w : Nat} (hw : w % 8 = 0) (h : Nat) : bytesPerFrame w h = w / 8 * h :=
  (Nat.div_mul_right_comm (Nat.dvd_of_mod_eq_zero hw) h).symm

/-- R103: frame byte k is the one at column c of row r exactly when k = r * BPW + c. -/
theorem pos_eq_iff {w k c r : Nat} (hc : c < w / 8) : pos w k = (c, r) ↔ k = r * (w / 8) + c := by
  rw [pos, Prod.mk.injEq, and_comm, Nat.div_mod_unique (by omega), Nat.mul_comm r, Nat.add_comm _ c]
  omega

section
variable {w h k : Nat} (hw : w % 8 = 0) (hk : k < bytesPerFrame w h)
include hw hk

/-- R109: all 8 pixels of a frame byte below BPF lie in the frame. -/
theorem pos_in_frame : 8 * (pos w k).1 + 7 < w ∧ (pos w k).2 < h := by
  have hin := List.all_eq_true.1 (bytesInFrame_of_le hw (Nat.succ_le_of_lt hk)) k (by simp)
  simpa [byteInFrame] using hin

theorem pos_lt : (pos w k).1 < w / 8 ∧ (pos w k).2 < h := by
  obtain ⟨hc, hr⟩ := pos_in_frame hw hk
  omega

end

/-- R103: the index of a frame byte from its row and column. -/
theorem pos_index (w k : Nat) : (pos w k).2 * (w / 8) + (pos w k).1 = k := Nat.div_add_mod' k (w / 8)

/-- R103: every column below BPW of every row below H has its frame byte. -/
theorem index_lt_bytesPerFrame {w h c r : Nat} (hw : w % 8 = 0) (hc : c < w / 8) (hr : r < h) :
    r * (w / 8) + c < bytesPerFrame w h :=
  (pixel_index_lt hc hr).trans_eq (bytesPerFrame_eq_mul hw h).symm

/-- Settles O32: k = r * BPW + c is the inverse of pos. -/
theorem bytePositionsAreBijection : Obligations.BytePositionsAreBijection := by
  intro w h hw _
  refine ⟨fun k => pos_lt hw, fun k k' _ _ heq => ?_, fun c r hc hr => ?_⟩
  · rw [← pos_index w k, heq, pos_index]
  · exact ⟨r * (w / 8) + c, index_lt_bytesPerFrame hw hc hr, (pos_eq_iff hc).2 rfl⟩

/-! ### Packing -/

/-- R109: placeByte sets the 8 pixels at the byte's column and row, and no other. -/
theorem getPix_placeByte (F : Frame) {k : Nat} (b : Byte) (x y : Nat) (hw : F.w % 8 = 0)
    (hk : k < bytesPerFrame F.w F.h) :
    getPix (placeByte F F.w k b) x y =
      if pos F.w k = (x / 8, y) then b.getLsbD (x % 8) else getPix F x y := by
  obtain ⟨hc, hr⟩ := pos_in_frame hw hk
  rw [placeByte, getPix_setRun F _ _ x y _ (by simp; omega) hr, length_encodeByte]
  simp only [Prod.ext_iff]
  by_cases hat : (pos F.w k).1 = x / 8 ∧ (pos F.w k).2 = y
  · rw [if_pos (by omega), if_pos hat, ← getD_encodeByte b (Nat.mod_lt x (by decide))]
    congr 1; omega
  · rw [if_neg (by omega), if_neg hat]

/-- Settles O33: its condition on x and y spells out the column and row of frame byte k. -/
theorem placeByteSetsItsPixels : Obligations.PlaceByteSetsItsPixels := by
  intro F k b x y hw _ hk _ _
  rw [getPix_placeByte F b x y hw hk]
  refine if_congr ?_ rfl rfl
  rw [pos, Prod.mk.injEq, and_comm, eq_comm, @eq_comm _ (k % _)]

/-- R111: the loop puts byte i - k of the list where it passes over frame byte i, and leaves all other pixels. -/
theorem getPix_placeBytes (F : Frame) (k : Nat) (B : List Byte) {x : Nat} (y : Nat) (hw : F.w % 8 = 0)
    (hB : k + B.length ≤ bytesPerFrame F.w F.h) (hx : x < F.w) :
    getPix (placeBytes F F.w k B) x y =
      if k ≤ y * (F.w / 8) + x / 8 ∧ y * (F.w / 8) + x / 8 < k + B.length then
        (B.getD (y * (F.w / 8) + x / 8 - k) 0).getLsbD (x % 8)
      else getPix F x y := by
  induction B generalizing F k with
  | nil => rw [placeBytes_nil, if_neg (by simp)]
  | cons b B ih =>
    rw [List.length_cons] at hB ⊢
    have ih := ih (placeByte F F.w k b) (k + 1)
    simp only [placeByte_w, placeByte_h] at ih
    rw [placeBytes_cons, ih hw (by omega) hx, getPix_placeByte F b x y hw (by omega),
      if_congr (pos_eq_iff (show x / 8 < F.w / 8 by omega)) rfl rfl]
    generalize y * (F.w / 8) + x / 8 = i
    obtain hlt | rfl | hgt := Nat.lt_trichotomy i k
    · rw [if_neg (by omega), if_neg (by omega), if_neg (by omega)]
    · rw [if_neg (by omega), if_pos rfl, if_pos (by omega), Nat.sub_self, List.getD_cons_zero]
    · rw [if_neg (show ¬k = i by omega), show i - k = i - (k + 1) + 1 by omega, List.getD_cons_succ]
      exact if_congr (by omega) rfl rfl

/-- R111, R115: past the last byte of the list the frame is black. -/
theorem getPix_packFrame {w h x : Nat} {B : List Byte} (y : Nat) (hw : w % 8 = 0) (hB : B.length ≤ bytesPerFrame w h)
    (hx : x < w) : getPix (packFrame w h B) x y = (B.getD (y * (w / 8) + x / 8) 0).getLsbD (x % 8) := by
  have hpix := getPix_placeBytes (blank w h) 0 B y hw (by simpa using hB) hx
  simp only [blank_w, getPix_blank, Nat.zero_le, true_and, Nat.zero_add, Nat.sub_zero] at hpix
  rw [packFrame, hpix]
  split
  · rfl
  next hpast => rw [List.getD_eq_default _ _ (Nat.le_of_not_lt hpast)]; exact BitVec.getLsbD_zero.symm

/-- Settles O34: the loop of R111 over the blank frame. -/
theorem packedFramePixels : Obligations.PackedFramePixels :=
  fun w h B _ y hw _ hB hx _ => ⟨packFrame_w w h B, packFrame_h w h B, getPix_packFrame y hw hB hx⟩

/-! ### Unpacking -/

/-- R110: bit j of a frame byte is its j-th pixel. -/
theorem getLsbD_takeByte (F : Frame) (w k : Nat) {j : Nat} (hj : j < 8) :
    (takeByte F w k).getLsbD j = getPix F (8 * (pos w k).1 + j) (pos w k).2 := by
  rw [takeByte, getLsbD_decodeByte _ hj, getD_getRun _ _ _ _ _ hj]

/-- R103: each of the 8 pixels of frame byte k is a pixel of that byte's index. -/
theorem pixel_byteIndex (w k : Nat) {j : Nat} (hj : j < 8) :
    (pos w k).2 * (w / 8) + (8 * (pos w k).1 + j) / 8 = k := by
  rw [show (8 * (pos w k).1 + j) / 8 = (pos w k).1 by omega, pos_index]

theorem takeByte_packFrame {w h k : Nat} {B : List Byte} (hw : w % 8 = 0) (hB : B.length ≤ bytesPerFrame w h)
    (hk : k < B.length) : takeByte (packFrame w h B) w k = B[k] := by
  have hin := pos_in_frame hw (hk.trans_le hB)
  refine BitVec.eq_of_getLsbD_eq fun j hj => ?_
  rw [getLsbD_takeByte _ w k hj, getPix_packFrame _ hw hB (by omega), pixel_byteIndex w k hj,
    List.getD_eq_getElem B 0 hk, Nat.mul_add_mod, Nat.mod_eq_of_lt hj]

/-- Settles O35: byte by byte. -/
theorem unpackInvertsPack : Obligations.UnpackInvertsPack := by
  intro w h B hw _ hB
  refine List.ext_getElem (length_unpackFrame _ w _) fun k hk hkB => ?_
  rw [← takeByte_packFrame hw hB hkB]
  simp [unpackFrame]

/-- Settles O36: a byte is read from the 8 pixels of its own index. -/
theorem unpackIgnoresPadding : Obligations.UnpackIgnoresPadding := by
  intro F G m hw _ _ _ hm hagree
  refine List.map_congr_left fun k hk => BitVec.eq_of_getLsbD_eq fun j hj => ?_
  rw [List.mem_range] at hk
  obtain ⟨hx, hy⟩ := pos_in_frame hw (hk.trans_le hm)
  rw [getLsbD_takeByte F _ k hj, getLsbD_takeByte G _ k hj]
  exact hagree _ _ (by omega) hy (by rwa [pixel_byteIndex _ k hj])

end Sys2Proof.Machine

/-! PROOF. Frame counts and chunks (R104, R105), and the bounds on what the codec computes (R106). -/

namespace Sys2Proof.Machine

/-! ### The frames of a payload -/

/-- R105: every frame's offset is short of the payload's end. -/
theorem off_lt_of_lt_ceilDiv {len bpf i : Nat} (hb : 1 ≤ bpf) (hi : i < ceilDiv len bpf) : i * bpf < len := by
  have hlen : 1 ≤ len := by have := ceilDiv_le_self (a := len) hb; omega
  calc i * bpf ≤ (ceilDiv len bpf - 1) * bpf := Nat.mul_le_mul_right bpf (by omega)
    _ < len := ceilDiv_pred_mul_lt hlen hb

/-- R105: the first n frames carry the first n * BPF bytes of the payload, or all of it. -/
theorem sum_chunkLength (bpf len n : Nat) :
    ((List.range n).map fun j => chunkLength bpf len (j * bpf)).sum = min (n * bpf) len := by
  induction n with
  | zero => simp
  | succ n ih =>
    rw [List.range_succ, List.map_append, List.sum_append, ih, List.map_singleton, List.sum_singleton, chunkLength,
      Nat.succ_mul]
    omega

/-- Settles O40: each claim is where the offsets of R105 stand to L. -/
theorem frameCountLaw : Obligations.FrameCountLaw := by
  intro len bpf hb hlen
  have hlast := ceilDiv_pred_mul_lt hlen hb
  have hall : len ≤ ceilDiv len bpf * bpf := le_ceilDiv_mul hb
  refine ⟨hlast, hall, fun j hj hlt => ?full, ?last, ?total⟩
  case full =>
    have hnext := off_lt_of_lt_ceilDiv hb hlt
    rw [chunkLength, Nat.sub_one_mul]
    have := Nat.le_mul_of_pos_left bpf hj
    omega
  case last => unfold chunkLength; omega
  case total => rw [sum_chunkLength, Nat.min_eq_right hall]

/-! ### The bounds of R106 -/

/-- R106: no payload of a 32-bit length needs more than 2^27 frames of 32 bytes or more. -/
theorem ceilDiv_le_two_pow {len bpf : Nat} (hlen : len < 2 ^ 32) (hb : 32 ≤ bpf) : ceilDiv len bpf ≤ 2 ^ 27 := by
  by_contra hmore
  have hoff := off_lt_of_lt_ceilDiv (by omega) (Nat.lt_of_not_le hmore)
  omega

/-- R106: off(j) + cnt(j) <= L. -/
theorem off_add_chunkLength_le {len bpf i : Nat} (hb : 1 ≤ bpf) (hi : i < ceilDiv len bpf) :
    i * bpf + chunkLength bpf len (i * bpf) ≤ len := by
  have hoff := off_lt_of_lt_ceilDiv hb hi
  unfold chunkLength
  omega

/-- The (MODE, PHASE) pairs of R28, one by one. -/
theorem pairHeld_cases {m p : BitVec 3} (h : pairHeld m p = true) :
    (m = Mode.idle ∧ p = 0) ∨ (m = Mode.enc ∧ p = Phase.encLoad) ∨ (m = Mode.enc ∧ p = Phase.encMeta) ∨
    (m = Mode.enc ∧ p = Phase.encData) ∨ (m = Mode.enc ∧ p = Phase.encFinish) ∨
    (m = Mode.dec ∧ p = Phase.decMeta) ∨ (m = Mode.dec ∧ p = Phase.decData) ∨
    (m = Mode.dec ∧ p = Phase.decCommit) ∨ (m = Mode.done ∧ p = 0) ∨ (m = Mode.error ∧ p = 0) := by
  revert m p; decide

/-- A state that meets the invariants is in one of the ten situations. -/
theorem Inv.situation {s : State} (h : Inv s) : Situation s := by
  obtain ⟨hpair, herr, -⟩ := (State.heldFault_eq_none s).1 h.held
  obtain ⟨hm, hp⟩ | ⟨hm, hp⟩ | ⟨hm, hp⟩ | ⟨hm, hp⟩ | ⟨hm, hp⟩ | ⟨hm, hp⟩ | ⟨hm, hp⟩ | ⟨hm, hp⟩ | ⟨hm, hp⟩ |
    ⟨hm, hp⟩ := pairHeld_cases hpair
  · exact .idle hm hp (h.errcode_zero (by rw [hm]; decide))
  · exact .encLoad (h.encoding hm) hp (h.enc_load hm hp)
  · exact .encMeta (h.encoding hm) hp (h.enc_meta hm hp)
  · exact .encData (h.encoding hm) hp (h.enc_data hm hp)
  · exact .encFinish (h.encoding hm) hp (h.enc_finish hm hp)
  · exact .decMeta hm (h.errcode_zero (by rw [hm]; decide)) hp (h.dec_meta hm hp)
  · exact .decData hm (h.errcode_zero (by rw [hm]; decide)) hp (h.dec_data hm hp)
  · exact .decCommit hm (h.errcode_zero (by rw [hm]; decide)) hp (h.dec_commit hm hp)
  · exact .done hm hp (h.errcode_zero (by rw [hm]; decide)) (h.done hm)
  · exact .error hm hp herr (h.errcode_iff.2 hm)

/-- R106: FIDX and CURSOR do not go past the end of the payload. -/
structure WithinPayload (s : State) : Prop where
  fidx_le : s.fidx.toNat ≤ s.fcount.toNat + 1
  cursor_le : s.cursor.toNat ≤ s.length.toNat

theorem WithinPayload.of_zero {s : State} (hf : s.fidx = 0) (hc : s.cursor = 0) : WithinPayload s :=
  ⟨by simp [hf], by simp [hc]⟩

theorem AtData.withinPayload {s : State} (h : AtData s) : WithinPayload s := by
  obtain ⟨-, hle, -, hlt⟩ := h
  exact ⟨by omega, hlt.le⟩

theorem AtEnd.withinPayload {s : State} (h : AtEnd s) : WithinPayload s := by
  obtain ⟨hf, hc⟩ := h
  exact ⟨hf.le, by rw [hc]⟩

theorem Situation.withinPayload {s : State} (h : Situation s) (hm : s.mode = 1 ∨ s.mode = 2 ∨ s.mode = 3) :
    WithinPayload s := by
  cases h with
  | idle hi => simp [hi] at hm
  | encLoad _ _ hz => obtain ⟨-, -, hf, hc⟩ := hz; exact .of_zero hf hc
  | encMeta _ _ hz => obtain ⟨-, -, hf, hc, -⟩ := hz; exact .of_zero hf hc
  | encData _ _ hs => obtain ⟨-, hd, -⟩ := hs; exact hd.withinPayload
  | encFinish _ _ hs => obtain ⟨-, he, -⟩ := hs; exact he.withinPayload
  | decMeta _ _ _ hz => obtain ⟨-, -, -, hf, hc⟩ := hz; exact .of_zero hf hc
  | decData _ _ _ hs => obtain ⟨-, -, hd, -⟩ := hs; exact hd.withinPayload
  | decCommit _ _ _ hs => obtain ⟨-, -, he, -⟩ := hs; exact he.withinPayload
  | done _ _ _ hs => obtain ⟨-, he⟩ := hs; exact he.withinPayload
  | error he => simp [he] at hm

/-- R106: the frame count of a latched geometry. -/
theorem Latched.fcount_le {s : State} (hp : s.params.legal = true) (h : Latched s) (hc : Counted s) :
    s.fcount.toNat ≤ 2 ^ 27 := by
  rw [hc]; exact ceilDiv_le_two_pow s.length.isLt (h.le_bpf hp)

theorem Situation.fcount_le {s : State} (h : Situation s) (hp : s.params.legal = true)
    (hm : s.mode = 1 ∨ s.mode = 2) : s.fcount.toNat ≤ 2 ^ 27 := by
  cases h with
  | idle hi => simp [hi] at hm
  | encLoad _ _ hz => obtain ⟨-, hfc, -⟩ := hz; simp [hfc]
  | encMeta henc _ hs => obtain ⟨-, hc, -⟩ := hs; exact henc.latched.fcount_le hp hc
  | encData henc _ hs => obtain ⟨hc, -⟩ := hs; exact henc.latched.fcount_le hp hc
  | encFinish henc _ hs => obtain ⟨hc, -⟩ := hs; exact henc.latched.fcount_le hp hc
  | decMeta _ _ _ hz => obtain ⟨-, -, hfc, -⟩ := hz; simp [hfc]
  | decData _ _ _ hs => obtain ⟨hl, hc, -⟩ := hs; exact hl.fcount_le hp hc
  | decCommit _ _ _ hs => obtain ⟨hl, hc, -⟩ := hs; exact hl.fcount_le hp hc
  | done hd => simp [hd] at hm
  | error he => simp [he] at hm

/-- Settles O41: the computed values by arithmetic, the registers by the situation the state is in. -/
theorem computedValuesFit : Obligations.ComputedValuesFit := by
  refine ⟨fun p w h len hp hg hlen => ?_, fun s hs => ?_⟩
  · obtain ⟨hlo, hhi, hw, hh⟩ := bytesPerFrame_bounds hp ((validGeom_iff p w h).2 hg)
    obtain ⟨-, -, -, hpbuf⟩ := Params.legal_bounds hp
    have hb : 1 ≤ bytesPerFrame w h := by omega
    exact ⟨hw, hh, hlo, hhi, by omega, ceilDiv_le_self hb, ceilDiv_le_two_pow (by omega) hlo,
      fun j hj hle => off_add_chunkLength_le hb (by omega)⟩
  · have hsit := hs.situation
    refine ⟨fun hm => ?_, fun hm => ?_⟩
    · have hfc := hsit.fcount_le hs.params_legal hm
      have hfidx := (hsit.withinPayload (by tauto)).fidx_le
      exact ⟨hfc, by omega⟩
    · obtain ⟨hfidx, hcur⟩ := hsit.withinPayload hm
      exact ⟨hfidx, hcur, hs.length_le⟩

end Sys2Proof.Machine

/-! PROOF. The metadata codec: the pixels of the length header (R120), what decoding reads (R121, R125), and the header
as a data frame (R124). -/

namespace Sys2Proof.Machine

/-! ### The header's pixels -/

/-- R120: the loop over bits 0 .. 31 on the blank frame. -/
theorem getPix_encodeMetadata (len : Word) {w h : Nat} (x y : Nat) (hw : 32 ≤ w) (hh : 1 ≤ h) :
    getPix (encodeMetadata len w h) x y = (decide (y = 0 ∧ x < 32) && len.getLsbD x) := by
  rw [encodeMetadata, getPix_setRun (blank w h) 0 0 x y _ (by simpa using hw) hh, length_bitsOf, getPix_blank]
  by_cases hin : y = 0 ∧ x < 32
  · rw [if_pos (by omega), decide_eq_true hin, Bool.true_and, getD_bitsOf _ _ _ (by omega)]
    rfl
  · rw [if_neg (by omega), decide_eq_false hin, Bool.false_and]

/-- Settles O37: the geometry is the blank frame's, the pixels are those of the run of 32 bits in row 0. -/
theorem metadataFramePixels : Obligations.MetadataFramePixels :=
  fun len w h x y hw hh => ⟨encodeMetadata_w len w h, encodeMetadata_h len w h, getPix_encodeMetadata len x y hw hh⟩

/-! ### Decoding the header -/

/-- R121: bit i of the decoded length is pixel (i, 0). -/
theorem getLsbD_decodeMetadata (F : Frame) {i : Nat} (hi : i < 32) :
    (decodeMetadata F).getLsbD i = getPix F i 0 := by
  rw [decodeMetadata, BitVec.getLsbD_ofNat, testBit_bitsToNat, decide_eq_true hi, Bool.true_and,
    getD_getRun F 0 0 32 i hi, Nat.zero_add]

theorem decodeMetadata_encodeMetadata (len : Word) {w h : Nat} (hw : 32 ≤ w) (hh : 1 ≤ h) :
    decodeMetadata (encodeMetadata len w h) = len := by
  refine BitVec.eq_of_getLsbD_eq fun i hi => ?_
  rw [getLsbD_decodeMetadata _ hi, getPix_encodeMetadata len i 0 hw hh, decide_eq_true ⟨rfl, hi⟩, Bool.true_and]

theorem decodeMetadata_congr {F G : Frame} (hagree : ∀ x, x < 32 → getPix F x 0 = getPix G x 0) :
    decodeMetadata F = decodeMetadata G :=
  BitVec.eq_of_getLsbD_eq fun i hi => by
    rw [getLsbD_decodeMetadata F hi, getLsbD_decodeMetadata G hi, hagree i hi]

/-- Settles O38: the decoded length is, bit by bit, the 32 header pixels. -/
theorem metadataRoundTrip : Obligations.MetadataRoundTrip :=
  ⟨fun len _ _ => decodeMetadata_encodeMetadata len, fun _ _ => decodeMetadata_congr⟩

/-! ### The header as a data frame -/

/-- R124: the four bytes of a length, least significant first. -/
def lengthBytes (len : Word) : List Byte := (List.range 4).map fun k => len.extractLsb' (8 * k) 8

@[simp] theorem length_lengthBytes (len : Word) : (lengthBytes len).length = 4 := rfl

/-- R124: little-endian order puts bit n of the length at bit n mod 8 of byte n div 8; past bit 31 both sides are 0. -/
theorem getLsbD_lengthBytes (len : Word) (n : Nat) :
    ((lengthBytes len).getD (n / 8) 0).getLsbD (n % 8) = len.getLsbD n := by
  by_cases hn : n < 32
  · have hbyte : (lengthBytes len).getD (n / 8) 0 = len.extractLsb' (8 * (n / 8)) 8 := by
      rw [List.getD_eq_getElem _ _ (by simp; omega)]; simp [lengthBytes]
    rw [hbyte, BitVec.getLsbD_extractLsb', decide_eq_true (Nat.mod_lt n (by decide)), Bool.true_and, Nat.div_add_mod]
  · rw [List.getD_eq_default _ _ (by simp; omega), BitVec.getLsbD_of_ge len n (by omega)]
    exact BitVec.getLsbD_zero

/-- R103, R104: a frame of at least 32 columns and one row holds at least four bytes. -/
theorem length_lengthBytes_le (len : Word) {w h : Nat} (hw : 32 ≤ w) (hh : 1 ≤ h) :
    (lengthBytes len).length ≤ bytesPerFrame w h := by
  have hpixels : 32 * 1 ≤ w * h := Nat.mul_le_mul hw hh
  rw [length_lengthBytes, bytesPerFrame]; omega

/-- R116: bit x mod 8 of byte y * BPW + x div 8 is bit y * W + x of the byte string. -/
theorem pixel_bitIndex {w : Nat} (hw : w % 8 = 0) (x y : Nat) :
    (y * w + x) / 8 = y * (w / 8) + x / 8 ∧ (y * w + x) % 8 = x % 8 := by
  obtain ⟨q, rfl⟩ := Nat.dvd_of_mod_eq_zero hw
  rw [Nat.mul_div_cancel_left q (by decide), Nat.mul_left_comm]
  omega

/-- R124: pixel (x, y) of the packed length is its bit y * W + x, which is past bit 31 in every row but row 0. -/
theorem getPix_packFrame_lengthBytes (len : Word) {w h x : Nat} (y : Nat) (hw : w % 8 = 0) (hw32 : 32 ≤ w)
    (hh : 1 ≤ h) (hx : x < w) : getPix (packFrame w h (lengthBytes len)) x y = len.getLsbD (y * w + x) := by
  obtain ⟨hbyte, hbit⟩ := pixel_bitIndex hw x y
  rw [getPix_packFrame y hw (length_lengthBytes_le len hw32 hh) hx, ← hbyte, ← hbit, getLsbD_lengthBytes]

theorem encodeMetadata_eq_packFrame (len : Word) {w h : Nat} (hw : w % 8 = 0) (hw32 : 32 ≤ w) (hh : 1 ≤ h) :
    encodeMetadata len w h = packFrame w h (lengthBytes len) := by
  refine frame_ext _ _ (by simp) (by simp) fun x y hx _ => ?_
  rw [encodeMetadata_w] at hx
  rw [getPix_encodeMetadata len x y hw32 hh, getPix_packFrame_lengthBytes len y hw hw32 hh hx]
  by_cases hin : y = 0 ∧ x < 32
  · obtain ⟨rfl, hx32⟩ := hin
    simp [hx32]
  · have hpast : 32 ≤ y * w + x := by
      obtain rfl | hy := Nat.eq_zero_or_pos y
      · omega
      · have := Nat.le_mul_of_pos_left w hy
        omega
    rw [decide_eq_false hin, Bool.false_and, BitVec.getLsbD_of_ge len _ hpast]

/-- Settles O39: the statement's list is `lengthBytes`, written out. -/
theorem headerIsLittleEndianBytes : Obligations.HeaderIsLittleEndianBytes :=
  fun len _ _ => encodeMetadata_eq_packFrame len

end Sys2Proof.Machine

/-! PROOF. The encoder's four steps by their rules (R140, R143, R146, R149), and what they leave unchanged. -/

namespace Sys2Proof.Machine

/-! ### The steps by their rules -/

/-- R143, R146, R149: DISCARD and ContainerWriteError, as one update. -/
theorem State.failWriter_eq (s : State) :
    s.failWriter = { s with
      hist := s.hist ++ [.vwDiscard], mode := Mode.error, phase := 0, errcode := ErrCode.containerWrite } := rfl

/-- R65: BEGIN, as one update of what VW's answer leaves. -/
theorem State.askBegin_eq (s : State) (w h rate : Nat) :
    s.askBegin w h rate = { s.vwTaken with hist := s.hist ++ [.vwBegin w h rate s.vwAnswer] } := by
  rw [State.askBegin, State.emit, State.vwTaken_hist]

/-- R65, R275: PUT, which leaves no frame in FB. -/
theorem State.askPut_eq (s : State) (F : Frame) :
    s.askPut F = { s.vwTaken with fb := none, hist := s.hist ++ [.vwPut F s.vwAnswer] } := by
  simp [State.askPut, State.emit, State.fillFb, State.dropFb]

/-- R65: FINISH. -/
theorem State.askFinish_eq (s : State) :
    s.askFinish = { s.vwTaken with hist := s.hist ++ [.vwFinish s.vwAnswer] } := by
  rw [State.askFinish, State.emit, State.vwTaken_hist]

/-- R67: READ. -/
theorem State.askRead_eq (s : State) :
    s.askRead = { s.srcTaken with hist := s.hist ++ [.srcRead s.srcAnswer] } := by
  rw [State.askRead, State.emit, State.srcTaken_hist]

/-- Settles O21: each answer of SRC takes one branch; the payload that fits is stored by a MemWrite in range. -/
theorem encLoadByItsRule : Obligations.EncLoadByItsRule := by
  intro s
  refine ⟨fun ha => ?_, fun B ha => ⟨fun hB => ?_, fun hlong hB => ?_, fun hfits hB => ?_⟩⟩ <;>
    simp only [exec, execEncLoad, ha]
  · rw [State.askRead_eq, ha]; rfl
  · rw [if_pos (by simp [hB]), State.askRead_eq, ha]; rfl
  · rw [if_neg (by simpa using hB), if_pos hlong, State.askRead_eq, ha]; rfl
  · have hwrite := (State.memWrite_eq_ok s.askRead _ 0 B).2 ⟨by simpa using hfits, rfl⟩
    rw [if_neg (by simpa using hB), if_neg (by omega), hwrite, State.askRead_eq, ha]
    simp [ceilDiv]

/-- Settles O22: the answers of BEGIN and of PUT, and the header check between them. -/
theorem encMetaByItsRule : Obligations.EncMetaByItsRule := by
  intro s
  refine ⟨fun ha => ?_, fun ha hw hh => ?_, fun ha hout => ?_⟩
  · simp only [exec, execEncMeta, ha]
    rw [State.askBegin_eq, State.failWriter_eq, ha]; simp
  · have hin : headerInFrame s.width.toNat s.height.toNat = true := by simp [headerInFrame, hw, hh]
    constructor <;> intro ha' <;> simp only [exec, execEncMeta, ha, if_pos hin, State.askBegin_vwAnswer, ha']
    · simp [State.failWriter_eq, State.askPut_eq, State.askBegin_vwTaken, State.askBegin_vwAnswer, State.emit, ha, ha']
    · simp [State.askPut_eq, State.askBegin_vwTaken, State.askBegin_vwAnswer, State.emit, ha, ha']
  · have hfalse : headerInFrame s.width.toNat s.height.toNat = false := by
      simpa [headerInFrame] using hout
    simp [exec, execEncMeta, ha, hfalse]

/-- Settles O23: the bytes are in PBUF and in the frame, so the answer of PUT decides. -/
theorem encDataByItsRule : Obligations.EncDataByItsRule := by
  intro s m B hm hr hB hw hle
  have hchunk : s.chunk = m := hm.symm
  have hread := (State.memRead_eq_ok s s.cursor.toNat m B).2 ⟨hr, hB⟩
  have hin : bytesInFrame s.width.toNat s.height.toNat B.length = true :=
    bytesInFrame_of_le hw (by rwa [Memory.readBytes_length hB])
  have hlast : s.fidx.toNat + 1 = s.fcount.toNat + 1 ↔ s.fidx = s.fcount := by
    rw [Nat.add_right_cancel_iff, BitVec.toNat_inj]
  constructor <;> intro ha <;> simp only [exec, execEncData, hchunk, hread, if_pos hin, ha, State.askPut_eq]
  · rw [State.failWriter_eq]; simp
  · simp only [hlast]

/-- Settles O24: the answer of FINISH decides. -/
theorem encFinishByItsRule : Obligations.EncFinishByItsRule := by
  intro s
  constructor <;> intro ha <;> simp only [exec, execEncFinish, ha, State.askFinish_eq]
  rw [State.failWriter_eq]; simp

/-! ### What the steps leave unchanged -/

/-- From s to t everything stays that no step of an encode writes; ERRCODE changes only on the way to ERROR, and a
change of MODE ends the operation. -/
structure EncoderKeeps (s t : State) : Prop where
  params : t.params = s.params
  lastcmd : t.lastcmd = s.lastcmd
  width : t.width = s.width
  height : t.height = s.height
  rate : t.rate = s.rate
  bpf : t.bpf = s.bpf
  sched : t.sched = s.sched
  reads : t.reads = s.reads
  vrIn : t.vrIn = s.vrIn
  snkIn : t.snkIn = s.snkIn
  fb : s.fb = none → t.fb = none
  errcode : t.errcode = s.errcode ∨ (t.mode = 4 ∧ t.phase = 0)
  mode : t.mode = s.mode ∨ t.phase = 0

/-- The payload and its registers are read by ENC_META, ENC_DATA and ENC_FINISH, and SRC is not asked. -/
structure PayloadKept (s t : State) : Prop where
  srcIn : t.srcIn = s.srcIn
  length : t.length = s.length
  fcount : t.fcount = s.fcount
  pbuf : t.pbuf = s.pbuf

section
variable {s t : State}

theorem execEncLoad_keeps (h : execEncLoad s = .next t) : EncoderKeeps s t := by
  obtain ⟨c, -, -, rfl⟩ | ⟨B, -, -, -, rfl⟩ := execEncLoad_next h <;> constructor <;> simp

theorem execEncMeta_keeps (h : execEncMeta s = .next t) : EncoderKeeps s t ∧ PayloadKept s t := by
  obtain ⟨-, rfl⟩ | ⟨-, u, rfl, ⟨-, rfl⟩ | ⟨-, rfl⟩⟩ := execEncMeta_next h <;> constructor <;> constructor <;> simp

theorem execEncData_keeps (h : execEncData s = .next t) : EncoderKeeps s t ∧ PayloadKept s t := by
  obtain ⟨B, -, ⟨-, rfl⟩ | ⟨-, rfl⟩⟩ := execEncData_next h <;> constructor <;> constructor <;> simp

theorem execEncFinish_keeps (h : execEncFinish s = .next t) : EncoderKeeps s t ∧ PayloadKept s t := by
  obtain ⟨-, rfl⟩ | ⟨-, rfl⟩ := execEncFinish_next h <;> constructor <;> constructor <;> simp

/-- R140: a READ that fails stores nothing, and the payload is stored below its own length. -/
theorem execEncLoad_read (h : execEncLoad s = .next t) {a : Nat} (ha : ∀ B, s.srcAnswer = .bytes B → B.length ≤ a) :
    t.pbuf.read a = s.pbuf.read a := by
  obtain ⟨c, -, -, rfl⟩ | ⟨B, hB, -, -, rfl⟩ := execEncLoad_next h
  · simp
  · exact s.pbuf.read_writeBytes_outside 0 a B (.inr (by have := ha B hB; omega))

theorem execEncLoad_unchanged (h : execEncLoad s = .next t) :
    t.vwIn = s.vwIn ∧ t.fb = s.fb ∧ t.fidx = s.fidx ∧ t.cursor = s.cursor := by
  obtain ⟨c, -, -, rfl⟩ | ⟨B, -, -, -, rfl⟩ := execEncLoad_next h <;> simp

theorem execEncMeta_cursor (h : execEncMeta s = .next t) : t.cursor = s.cursor := by
  obtain ⟨-, rfl⟩ | ⟨-, u, rfl, ⟨-, rfl⟩ | ⟨-, rfl⟩⟩ := execEncMeta_next h <;> simp

theorem execEncFinish_unchanged (h : execEncFinish s = .next t) : t.fidx = s.fidx ∧ t.cursor = s.cursor := by
  obtain ⟨-, rfl⟩ | ⟨-, rfl⟩ := execEncFinish_next h <;> simp

end

/-- Settles O25: what all four keep, what the three after ENC_LOAD keep beside it, and the rest step by step. -/
theorem encoderFrames : Obligations.EncoderFrames := by
  intro i s t hi hx
  have hkeeps : EncoderKeeps s t ∧ (i ≠ .encLoad → PayloadKept s t) := by
    obtain rfl | rfl | rfl | rfl := hi
    · exact ⟨execEncLoad_keeps hx, fun hne => absurd rfl hne⟩
    · exact (execEncMeta_keeps hx).imp_right fun hk _ => hk
    · exact (execEncData_keeps hx).imp_right fun hk _ => hk
    · exact (execEncFinish_keeps hx).imp_right fun hk _ => hk
  obtain ⟨hk, hpayload⟩ := hkeeps
  refine ⟨hk.params, hk.lastcmd, hk.width, hk.height, hk.rate, hk.bpf, hk.sched, hk.reads, hk.vrIn, hk.snkIn,
    fun hne => ?payload, ?load, fun hmeta hdata => ?fidx, fun hdata => ?cursor, hk.fb, hk.errcode, ?mode⟩
  case payload =>
    obtain ⟨hsrc, hlen, hfc, hpbuf⟩ := hpayload hne
    exact ⟨hsrc, hlen, hfc, fun a => by rw [hpbuf]⟩
  case load =>
    rintro rfl
    obtain ⟨hvw, hfb, -, -⟩ := execEncLoad_unchanged hx
    exact ⟨hvw, hfb, fun a => execEncLoad_read hx⟩
  case fidx =>
    obtain rfl | rfl | rfl | rfl := hi
    · obtain ⟨-, -, hfidx, -⟩ := execEncLoad_unchanged hx
      exact hfidx
    · exact absurd rfl hmeta
    · exact absurd rfl hdata
    · exact (execEncFinish_unchanged hx).1
  case cursor =>
    obtain rfl | rfl | rfl | rfl := hi
    · obtain ⟨-, -, -, hcur⟩ := execEncLoad_unchanged hx
      exact hcur
    · exact execEncMeta_cursor hx
    · exact absurd rfl hdata
    · exact (execEncFinish_unchanged hx).2
  case mode =>
    by_cases hm : t.mode = s.mode
    · exact .inl hm
    · exact .inr ⟨hm, hk.mode.resolve_left hm⟩

end Sys2Proof.Machine

/-! PROOF. Every step keeps the order at the writer's port (R31, R65, R150). -/

namespace Sys2Proof.Machine

/-! ### The writer from step to step -/

/-- R31: where the writer stands by STATUS and FIDX. -/
def State.writer (s : State) : Writer := if s.vwOpen then .writing s.fidx.toNat else .closed

theorem State.writer_open {s : State} (hm : s.mode = Mode.enc)
    (hp : s.phase = Phase.encData ∨ s.phase = Phase.encFinish) :
    s.writer = .writing s.fidx.toNat :=
  if_pos (by simpa [State.vwOpen, hm] using hp)

theorem State.writer_closed {s : State} (h : s.vwOpen = false) : s.writer = .closed :=
  if_neg (by simp [h])

theorem State.vwOpen_early {s : State} (hp : s.phase = Phase.encLoad ∨ s.phase = Phase.encMeta) : s.vwOpen = false := by
  obtain hp | hp := hp <;> simp [State.vwOpen, hp]

theorem writerAfter_append (w : Writer) (H K : List Event) :
    writerAfter w (H ++ K) = (writerAfter w H).bind fun w' => writerAfter w' K := by
  induction H generalizing w with
  | nil => rfl
  | cons e H ih =>
    simp only [List.cons_append, writerAfter, Option.bind_assoc]
    exact Option.bind_congr fun w' _ => ih w'

/-- From s to t the history grows by events that take the writer, in R65's order, from where s has it to where t has
it. -/
structure WriterMoves (s t : State) (es : List Event) : Prop where
  hist : t.hist = s.hist ++ es
  order : writerAfter s.writer es = some t.writer

theorem WriterMoves.inOrder {s t : State} {es : List Event} (hm : WriterMoves s t es) (h : WriterInOrder s) :
    WriterInOrder t := by
  have hs : writerAfter .closed s.hist = some s.writer := h
  show writerAfter .closed t.hist = some t.writer
  rw [hm.hist, writerAfter_append, hs, Option.bind_some, hm.order]

theorem WriterMoves.of_unchanged {s t : State} (hm : t.mode = s.mode) (hp : t.phase = s.phase) (hf : t.fidx = s.fidx)
    (hh : t.hist = s.hist) : WriterMoves s t [] :=
  ⟨by simp [hh], by simp [writerAfter, State.writer, State.vwOpen, hm, hp, hf]⟩

/-- Neither before nor after the step is the writer open. -/
theorem WriterMoves.of_closed {s t : State} {es : List Event} (hs : s.vwOpen = false) (ht : t.vwOpen = false)
    (hh : t.hist = s.hist ++ es) (hes : writerAfter .closed es = some .closed) : WriterMoves s t es :=
  ⟨hh, by rw [State.writer_closed hs, State.writer_closed ht, hes]⟩

/-- The open writer is given up: R65 allows DISCARD at once, and asks for it after an ERR answer. -/
theorem WriterMoves.of_given_up {s t : State} {es : List Event} (hs : s.writer = .writing s.fidx.toNat)
    (ht : t.mode ≠ Mode.enc) (hh : t.hist = s.hist ++ es)
    (hes : writerAfter (.writing s.fidx.toNat) es = some .closed) : WriterMoves s t es :=
  ⟨hh, by rw [hs, State.writer_closed (State.vwOpen_eq_false ht), hes]⟩

theorem WriterMoves.of_sched {s t : State} {l : List Turn} {es : List Event}
    (h : WriterMoves { s with sched := l } t es) : WriterMoves s t es :=
  ⟨h.hist, h.order⟩

/-! ### Commands -/

theorem vwOpen_of_modeIdle {s : State} (h : modeIdle s.mode = true) : s.vwOpen = false := by
  refine State.vwOpen_eq_false ?_
  obtain h | h | h := (modeIdle_iff s.mode).1 h <;> rw [h] <;> decide

/-- R202: a START opens no writer; the first phase is LOAD. -/
theorem encStartEffect_vwOpen (s : State) : (encStartEffect s).vwOpen = false := by
  obtain ⟨-, he⟩ | ⟨-, -, he⟩ | ⟨-, -, he⟩ := encStartEffect_cases s <;> rw [he] <;> rfl

theorem clearEffect_vwOpen {s : State} (h : s.vwOpen = false) : (clearEffect s).vwOpen = false := by
  unfold clearEffect
  split
  · rfl
  · exact h

/-- R210. -/
theorem abortEffect_writerMoves (s : State) : ∃ es, WriterMoves s (abortEffect s) es := by
  obtain ⟨hm, hv, h⟩ | ⟨hm, hv, h⟩ | ⟨hm, -, h⟩ | ⟨hm, -, h⟩ | ⟨-, -, h⟩ := abortEffect_cases s <;> rw [h]
  · exact ⟨[.vwDiscard], .of_given_up (if_pos hv) (by simp) rfl rfl⟩
  · exact ⟨[], .of_closed hv rfl (by simp) rfl⟩
  · exact ⟨[.vrRelease], .of_closed (State.vwOpen_eq_false (by rw [hm]; decide)) rfl rfl rfl⟩
  · exact ⟨[], .of_closed (State.vwOpen_eq_false (by rw [hm]; decide)) rfl (by simp) rfl⟩
  · exact ⟨[], .of_unchanged rfl rfl rfl rfl⟩

theorem exec_command_writerMoves {s t : State} {v : Word} {c : Instr} (hc : decodeCmd v = .ok c)
    (hx : exec c s = .next t) : ∃ es, WriterMoves s t es := by
  obtain rfl | rfl | rfl | rfl := decodeCmd_ok hc
  · obtain ⟨hidle, rfl⟩ | ⟨-, rfl⟩ := execEncStart_next hx
    · have hs := vwOpen_of_modeIdle hidle
      exact ⟨[], .of_closed hs (encStartEffect_vwOpen s) (by simp) rfl⟩
    · exact ⟨[], .of_unchanged rfl rfl rfl rfl⟩
  · obtain ⟨hidle, rfl⟩ | ⟨-, rfl⟩ := execDecStart_next hx
    · exact ⟨[], .of_closed (vwOpen_of_modeIdle hidle) rfl (by simp [State.startClear]) rfl⟩
    · exact ⟨[], .of_unchanged rfl rfl rfl rfl⟩
  · obtain rfl := execAbort_next hx
    exact abortEffect_writerMoves s
  · obtain ⟨hidle, rfl⟩ | ⟨-, rfl⟩ := execClear_next hx
    · have hs := vwOpen_of_modeIdle hidle
      exact ⟨[], .of_closed hs (clearEffect_vwOpen hs) (by simp) rfl⟩
    · exact ⟨[], .of_unchanged rfl rfl rfl rfl⟩

/-! ### Encoder steps -/

/-- R140: the writer is opened after the payload is there. -/
theorem execEncLoad_writerMoves {s t : State} (hp : s.phase = Phase.encLoad) (hx : execEncLoad s = .next t) :
    ∃ es, WriterMoves s t es := by
  have hs := State.vwOpen_early (.inl hp)
  obtain ⟨c, -, -, rfl⟩ | ⟨B, -, -, -, rfl⟩ := execEncLoad_next hx
  · exact ⟨[.srcRead s.srcAnswer], .of_closed hs rfl (by simp) rfl⟩
  · exact ⟨[.srcRead s.srcAnswer], .of_closed hs (State.vwOpen_early (.inr rfl)) (by simp) rfl⟩

/-- R143: BEGIN, then the metadata frame, which is the one PUT of FIDX = 1; an ERR answer has its DISCARD. -/
theorem execEncMeta_writerMoves {s t : State} (hm : s.mode = Mode.enc) (hp : s.phase = Phase.encMeta)
    (hx : execEncMeta s = .next t) : ∃ es, WriterMoves s t es := by
  have hs := State.vwOpen_early (.inr hp)
  obtain ⟨hb, rfl⟩ | ⟨hb, u, rfl, ⟨hput, rfl⟩ | ⟨hput, rfl⟩⟩ := execEncMeta_next hx
  · exact ⟨[.vwBegin s.width.toNat s.height.toNat s.rate.toNat .err, .vwDiscard],
      .of_closed hs rfl (by simp [hb]) rfl⟩
  · exact ⟨[.vwBegin s.width.toNat s.height.toNat s.rate.toNat .ok,
        .vwPut (encodeMetadata s.length s.width.toNat s.height.toNat) .err, .vwDiscard],
      .of_closed hs rfl (by simp [hb, hput]) rfl⟩
  · refine ⟨[.vwBegin s.width.toNat s.height.toNat s.rate.toNat .ok,
        .vwPut (encodeMetadata s.length s.width.toNat s.height.toNat) .ok], by simp [hb, hput], ?_⟩
    rw [State.writer_closed hs, State.writer_open (by simpa using hm) (.inl rfl)]
    rfl

/-- R146: a PUT answered OK counts in FIDX, which does not wrap; one answered ERR has its DISCARD. -/
theorem execEncData_writerMoves {s t : State} (h : Inv s) (hm : s.mode = Mode.enc) (hp : s.phase = Phase.encData)
    (hx : execEncData s = .next t) : ∃ es, WriterMoves s t es := by
  have hs := State.writer_open hm (.inl hp)
  obtain ⟨B, -, ⟨hput, rfl⟩ | ⟨hput, ht⟩⟩ := execEncData_next hx
  · exact ⟨[.vwPut (packFrame s.width.toNat s.height.toNat B) .err, .vwDiscard],
      .of_given_up hs (by simp) (by simp [hput]) rfl⟩
  · obtain ⟨hcount, hdata, -⟩ := h.enc_data hm hp
    have hfidx : t.fidx.toNat = s.fidx.toNat + 1 := by
      rw [ht]; exact (hdata.sums_fit ((h.enc_latched hm).le_bpf h.params_legal) hcount).2
    have hopen : t.phase = Phase.encData ∨ t.phase = Phase.encFinish := by
      rw [ht]; dsimp only; split
      · exact .inr rfl
      · exact .inl hp
    refine ⟨[.vwPut (packFrame s.width.toNat s.height.toNat B) .ok], by simp [ht, hput], ?_⟩
    rw [hs, State.writer_open (by simpa [ht] using hm) hopen, hfidx]
    rfl

/-- R149: FINISH comes after FCOUNT + 1 PUTs, so never with zero frames. -/
theorem execEncFinish_writerMoves {s t : State} (h : Inv s) (hm : s.mode = Mode.enc)
    (hp : s.phase = Phase.encFinish) (hx : execEncFinish s = .next t) : ∃ es, WriterMoves s t es := by
  have hs := State.writer_open hm (.inr hp)
  obtain ⟨-, ⟨hframes, -⟩, -⟩ := h.enc_finish hm hp
  obtain ⟨ha, rfl⟩ | ⟨ha, rfl⟩ := execEncFinish_next hx
  · exact ⟨[.vwFinish .err, .vwDiscard], .of_given_up hs (by simp) (by simp [ha]) (by rw [hframes]; rfl)⟩
  · exact ⟨[.vwFinish .ok], .of_given_up hs (by simp) (by simp [ha]) (by rw [hframes]; rfl)⟩

/-! ### Decoder steps -/

@[simp] theorem latchHeader_mode (s : State) (F : Frame) : (latchHeader s F).mode = s.mode := by
  obtain ⟨t, rfl, ⟨-, h⟩ | ⟨-, h⟩⟩ := latchHeader_cases s F <;> simp [h]

@[simp] theorem advanceDecode_mode (s : State) (m : Nat) : (advanceDecode s m).mode = s.mode := by
  obtain ⟨t, rfl, ⟨-, h⟩ | ⟨-, h⟩⟩ := advanceDecode_cases s m <;> simp [h]

section
variable {s t : State} (hm : s.mode = Mode.dec)
include hm

theorem execDecMeta_writerMoves (hx : execDecMeta s = .next t) : ∃ es, WriterMoves s t es := by
  have hs := State.vwOpen_eq_false (s := s) (by rw [hm]; decide)
  obtain ⟨c, -, -, rfl, -⟩ | ⟨F, -, ⟨c, -, -, rfl⟩ | ⟨-, -, rfl⟩⟩ := execDecMeta_next hx
  · exact ⟨[.vrNext s.vrAnswer, .vrRelease], .of_closed hs rfl (by simp) rfl⟩
  · exact ⟨[.vrNext s.vrAnswer, .vrRelease], .of_closed hs rfl (by simp) rfl⟩
  · refine ⟨.vrNext s.vrAnswer :: if decodeMetadata F = 0 then [.vrRelease] else [],
      .of_closed hs (State.vwOpen_eq_false (by simp [hm])) (by simp [latchHeader_hist]) ?_⟩
    split <;> rfl

theorem execDecData_writerMoves (hx : execDecData s = .next t) : ∃ es, WriterMoves s t es := by
  have hs := State.vwOpen_eq_false (s := s) (by rw [hm]; decide)
  obtain ⟨c, -, -, rfl, -⟩ | ⟨F, -, ⟨c, -, -, rfl⟩ | ⟨-, -, -, rfl⟩⟩ := execDecData_next hx
  · exact ⟨[.vrNext s.vrAnswer, .vrRelease], .of_closed hs rfl (by simp) rfl⟩
  · exact ⟨[.vrNext s.vrAnswer, .vrRelease], .of_closed hs rfl (by simp) rfl⟩
  · refine ⟨.vrNext s.vrAnswer :: if s.cursor.toNat + s.chunk = s.length.toNat then [.vrRelease] else [],
      .of_closed hs (State.vwOpen_eq_false (by simp [hm])) (by simp [advanceDecode_hist]) ?_⟩
    split <;> rfl

theorem execDecCommit_writerMoves (hx : execDecCommit s = .next t) : ∃ es, WriterMoves s t es := by
  have hs := State.vwOpen_eq_false (s := s) (by rw [hm]; decide)
  obtain ⟨B, -, ⟨-, rfl⟩ | ⟨-, rfl⟩⟩ := execDecCommit_next hx <;>
    exact ⟨[.snkCommit B s.snkAnswer], .of_closed hs rfl (by simp) rfl⟩

end

/-! ### Every step -/

theorem Inv.exec_engine_writerMoves {s t : State} {c : Instr} (h : Inv s) (hc : decodeSel s.selector = .ok c)
    (hx : exec c s = .next t) : ∃ es, WriterMoves s t es := by
  obtain ⟨rfl, hm, hp⟩ | ⟨rfl, hm, hp⟩ | ⟨rfl, hm, hp⟩ | ⟨rfl, hm, hp⟩ | ⟨rfl, hm, hp⟩ |
    ⟨rfl, hm, hp⟩ | ⟨rfl, hm, hp⟩ := decodeSel_ok hc
  · exact execEncLoad_writerMoves hp hx
  · exact execEncMeta_writerMoves hm hp hx
  · exact execEncData_writerMoves h hm hp hx
  · exact execEncFinish_writerMoves h hm hp hx
  · exact execDecMeta_writerMoves hm hx
  · exact execDecData_writerMoves hm hx
  · exact execDecCommit_writerMoves hm hx

@[simp] theorem State.writeWord_mode (s : State) (i : Index) (v : Word) : (s.writeWord i v).mode = s.mode := by
  unfold State.writeWord
  split
  case h_4 => rfl
  all_goals split <;> rfl

@[simp] theorem State.writeWord_phase (s : State) (i : Index) (v : Word) : (s.writeWord i v).phase = s.phase := by
  unfold State.writeWord
  split
  case h_4 => rfl
  all_goals split <;> rfl

/-- Settles O48: a reset empties the history and closes the writer; any other step moves the writer in order. -/
theorem stepKeepsWriterOrder : Obligations.StepKeepsWriterOrder := by
  intro s t h horder hstep
  obtain ⟨rest, -, rfl⟩ | ⟨-, rest, hturn⟩ := step_next hstep
  · rfl
  · suffices hmoves : ∃ es, WriterMoves s t es from hmoves.elim fun _ hm => hm.inOrder horder
    have hrest : Inv { s with sched := rest } := { h with }
    obtain ⟨i, -, rfl⟩ | ⟨v, c, -, hc, hx⟩ | ⟨v, r, -, -, rfl⟩ | ⟨i, v, -, -, rfl⟩ |
      ⟨-, ⟨c, hc, hx⟩ | ⟨-, rfl⟩⟩ := hturn
    · exact ⟨[], .of_unchanged rfl rfl rfl rfl⟩
    · exact (exec_command_writerMoves hc hx).imp fun _ hm => hm.of_sched
    · exact ⟨[], .of_unchanged rfl rfl rfl rfl⟩
    · exact ⟨[], .of_unchanged (by simp) (by simp) (by simp) (by simp)⟩
    · exact (hrest.exec_engine_writerMoves hc hx).imp fun _ hm => hm.of_sched
    · exact ⟨[], .of_unchanged rfl rfl rfl rfl⟩

end Sys2Proof.Machine

/-! PROOF. With the Host silent every operation ends (R151, R178, R281): an engine step that is selected answers a next
state, and each one brings the end nearer. -/

namespace Sys2Proof.Machine

/-! ### Runs -/

theorem run_succ {s t : State} (h : step s = .next t) (k : Nat) : core.run (k + 1) s = core.run k t := by
  have hstep : core.step s = .next t := h
  simp only [Host.Core.run, hstep]

theorem run_one {s t : State} (h : step s = .next t) : core.run 1 s = .next t := run_succ h 0

theorem run_add {s t u : State} {a b : Nat} (ha : core.run a s = .next t) (hb : core.run b t = .next u) :
    core.run (a + b) s = .next u := by
  induction a generalizing s with
  | zero =>
    obtain rfl : s = t := Host.Outcome.next.inj ha
    rwa [Nat.zero_add]
  | succ a ih =>
    cases hstep : step s with
    | next v =>
      rw [run_succ hstep] at ha
      rw [Nat.succ_add, run_succ hstep, ih ha]
    | fault r =>
      have hcore : core.step s = .fault r := hstep
      simp [Host.Core.run, hcore] at ha
    | refused r =>
      have hcore : core.step s = .refused r := hstep
      simp [Host.Core.run, hcore] at ha

/-! ### The step that MODE and PHASE select -/

theorem State.selects {s : State} {m p : BitVec 3} {c : Instr} (hm : s.mode = m) (hp : s.phase = p)
    (hc : decodeSel (p ++ m) = .ok c) : decodeSel s.selector = .ok c := by
  rw [State.selector, hm, hp, hc]

/-- R86, R281: with no turn laid down the Engine takes the step it selects. -/
theorem step_silent {s : State} {c : Instr} (hf : s.heldFault = none) (hs : s.sched = [])
    (hc : decodeSel s.selector = .ok c) : step s = exec c s := by
  have hsame : ({ s with sched := [] } : State) = s := by rw [← hs]
  rw [step_engine (.inr ⟨hs, rfl⟩) hf hc, hsame]

/-- R27, R86: while an operation runs there is a step. -/
theorem Inv.selects {s : State} (h : Inv s) (hrun : s.idle = false) : ∃ c, decodeSel s.selector = .ok c := by
  cases h.situation with
  | idle hm => simp [State.idle, hm, modeIdle] at hrun
  | encLoad henc hp => exact ⟨.encLoad, State.selects henc.mode hp rfl⟩
  | encMeta henc hp => exact ⟨.encMeta, State.selects henc.mode hp rfl⟩
  | encData henc hp => exact ⟨.encData, State.selects henc.mode hp rfl⟩
  | encFinish henc hp => exact ⟨.encFinish, State.selects henc.mode hp rfl⟩
  | decMeta hm _ hp => exact ⟨.decMeta, State.selects hm hp rfl⟩
  | decData hm _ hp => exact ⟨.decData, State.selects hm hp rfl⟩
  | decCommit hm _ hp => exact ⟨.decCommit, State.selects hm hp rfl⟩
  | done hm => simp [State.idle, hm, modeIdle] at hrun
  | error hm => simp [State.idle, hm, modeIdle] at hrun

/-! ### Encoder steps answer -/

theorem encLoad_answers (s : State) : ∃ t, exec .encLoad s = .next t := by
  obtain ⟨herr, hbytes⟩ := encLoadByItsRule s
  cases ha : s.srcAnswer with
  | err => exact ⟨_, herr ha⟩
  | bytes B =>
    obtain ⟨hempty, hlong, hfits⟩ := hbytes B ha
    by_cases hB : B = []
    · exact ⟨_, hempty hB⟩
    · by_cases hle : B.length ≤ s.params.pbufSize
      · exact ⟨_, hfits hle hB⟩
      · exact ⟨_, hlong (by omega) hB⟩

/-- R100: a legal frame has the 32 header pixels. -/
theorem Latched.header_fits {s : State} (h : Latched s) : 32 ≤ s.width.toNat ∧ 1 ≤ s.height.toNat := by
  obtain ⟨-, -, hw, -, hh, -⟩ := (validGeom_iff _ _ _).1 h.1
  exact ⟨hw, by omega⟩

theorem Latched.encMeta_answers {s : State} (h : Latched s) : ∃ t, exec .encMeta s = .next t := by
  obtain ⟨hw, hh⟩ := h.header_fits
  obtain ⟨herr, hok, -⟩ := encMetaByItsRule s
  cases ha : s.vwAnswer with
  | err => exact ⟨_, herr ha⟩
  | ok =>
    obtain ⟨herr', hok'⟩ := hok ha hw hh
    cases ha' : s.vwTaken.vwAnswer with
    | err => exact ⟨_, herr' ha'⟩
    | ok => exact ⟨_, hok' ha'⟩

theorem State.chunk_le (s : State) : s.chunk ≤ s.bpf.toNat := Nat.min_le_left _ _

/-- R105, R109: a chunk is at most a frame's capacity, so its bytes lie in the frame. -/
theorem Latched.chunk_fits {s : State} (h : Latched s) :
    s.width.toNat % 8 = 0 ∧ s.chunk ≤ bytesPerFrame s.width.toNat s.height.toNat := by
  obtain ⟨hg, hbpf⟩ := h
  exact ⟨((validGeom_iff _ _ _).1 hg).1, hbpf ▸ s.chunk_le⟩

/-- R106: a data step stays within the payload. -/
theorem AtData.chunk_le_length {s : State} (h : AtData s) : s.cursor.toNat + s.chunk ≤ s.length.toNat := by
  obtain ⟨-, -, -, hlt⟩ := h
  have hchunk : s.chunk ≤ s.length.toNat - s.cursor.toNat := Nat.min_le_right _ _
  omega

/-- R105: the bytes of a data step are its chunk of the payload. -/
theorem AtData.chunk_read {s : State} {P : List Byte} (h : AtData s)
    (hP : s.pbuf.readBytes 0 s.length.toNat = some P) :
    s.pbuf.readBytes s.cursor.toNat s.chunk = some (chunkAt P s.bpf.toNat (s.fidx.toNat - 1)) := by
  rw [Memory.readBytes_sub hP h.chunk_le_length]
  obtain ⟨-, -, hcur, -⟩ := h
  rw [chunkAt, ← hcur, Option.some_inj, List.take_eq_take_iff, List.length_drop, Memory.readBytes_length hP]
  unfold State.chunk chunkLength
  omega

section
variable {s : State} (h : Inv s) (hm : s.mode = Mode.enc) (hp : s.phase = Phase.encData)
include h hm hp

/-- R43.4, R146: the chunk lies in PBUF, is read there as bytes of the payload, and fits the frame. -/
theorem Inv.encData_chunk {P : List Byte} (hP : s.pbuf.readBytes 0 s.length.toNat = some P) :
    s.cursor.toNat + s.chunk ≤ s.params.pbufSize ∧
    s.pbuf.readBytes s.cursor.toNat s.chunk = some (chunkAt P s.bpf.toNat (s.fidx.toNat - 1)) ∧
    s.width.toNat % 8 = 0 ∧ s.chunk ≤ bytesPerFrame s.width.toNat s.height.toNat := by
  obtain ⟨-, hdata, -⟩ := h.enc_data hm hp
  exact ⟨hdata.chunk_le_length.trans h.length_le, hdata.chunk_read hP, (h.enc_latched hm).chunk_fits⟩

theorem Inv.encData_answers : ∃ t, exec .encData s = .next t := by
  obtain ⟨-, -, P, -, hlen, hP⟩ := h.enc_data hm hp
  obtain ⟨hr, hread, hw, hfits⟩ := h.encData_chunk hm hp (P := P) (by rw [hlen, hP])
  obtain ⟨herr, hok⟩ := encDataByItsRule s s.chunk _ rfl hr hread hw hfits
  cases ha : s.vwAnswer with
  | err => exact ⟨_, herr ha⟩
  | ok => exact ⟨_, hok ha⟩

end

theorem encFinish_answers (s : State) : ∃ t, exec .encFinish s = .next t := by
  obtain ⟨herr, hok⟩ := encFinishByItsRule s
  cases ha : s.vwAnswer with
  | err => exact ⟨_, herr ha⟩
  | ok => exact ⟨_, hok ha⟩

/-! ### Decoder steps answer -/

theorem decMeta_answers (s : State) : ∃ t, exec .decMeta s = .next t := by
  unfold exec execDecMeta
  cases s.vrAnswer with
  | eos => exact ⟨_, rfl⟩
  | err => exact ⟨_, rfl⟩
  | frame F => dsimp only; split_ifs <;> exact ⟨_, rfl⟩

/-- R173: a frame of the latched geometry holds the chunk, and PBUF has room for it. -/
theorem Inv.decData_answers {s : State} (h : Inv s) (hm : s.mode = Mode.dec) (hp : s.phase = Phase.decData) :
    ∃ t, exec .decData s = .next t := by
  obtain ⟨hlat, -, hdata, -⟩ := h.dec_data hm hp
  obtain ⟨hw, hfits⟩ := hlat.chunk_fits
  have hlen := h.length_le
  have hle := hdata.chunk_le_length
  unfold exec Machine.execDecData
  cases s.vrAnswer with
  | eos => exact ⟨_, rfl⟩
  | err => exact ⟨_, rfl⟩
  | frame F =>
    by_cases hg : (F.w, F.h) = (s.width.toNat, s.height.toNat)
    · obtain ⟨hFw, hFh⟩ := Prod.mk.inj hg
      have hin : bytesInFrame F.w F.h s.chunk = true := by rw [hFw, hFh]; exact bytesInFrame_of_le hw hfits
      have hwrite := (State.memWrite_eq_ok (s.askNext.fillFb F).dropFb _ s.cursor.toNat
        (unpackFrame F s.width.toNat s.chunk)).2 ⟨by simp; omega, rfl⟩
      exact ⟨_, (if_neg (not_not.2 hg)).trans ((if_pos hin).trans (by rw [hwrite]))⟩
    · exact ⟨_, if_pos hg⟩

/-- R176: the whole payload is in PBUF. -/
theorem Inv.decCommit_answers {s : State} (h : Inv s) (hm : s.mode = Mode.dec) (hp : s.phase = Phase.decCommit) :
    ∃ t, exec .decCommit s = .next t := by
  obtain ⟨-, -, -, hholds⟩ := h.dec_commit hm hp
  have hsome := (Memory.readBytes_isSome s.pbuf 0 s.length.toNat).2 fun k hk => by simpa using hholds k hk
  obtain ⟨B, hB⟩ := Option.isSome_iff_exists.1 hsome
  have hread := (State.memRead_eq_ok s 0 s.length.toNat B).2 ⟨by simpa using h.length_le, hB⟩
  unfold exec Machine.execDecCommit
  rw [hread]
  cases s.snkAnswer <;> exact ⟨_, rfl⟩

/-- R250: a step that is selected answers a next state. -/
theorem Inv.exec_engine_answers {s : State} {c : Instr} (h : Inv s) (hc : decodeSel s.selector = .ok c) :
    ∃ t, exec c s = .next t := by
  obtain ⟨rfl, hm, hp⟩ | ⟨rfl, hm, hp⟩ | ⟨rfl, hm, hp⟩ | ⟨rfl, hm, hp⟩ | ⟨rfl, hm, hp⟩ |
    ⟨rfl, hm, hp⟩ | ⟨rfl, hm, hp⟩ := decodeSel_ok hc
  · exact encLoad_answers s
  · exact (h.enc_latched hm).encMeta_answers
  · exact h.encData_answers hm hp
  · exact encFinish_answers s
  · exact decMeta_answers s
  · exact h.decData_answers hm hp
  · exact h.decCommit_answers hm hp

/-! ### The turns to come -/

@[simp] theorem latchHeader_sched (s : State) (F : Frame) : (latchHeader s F).sched = s.sched := by
  obtain ⟨t, rfl, ⟨-, h⟩ | ⟨-, h⟩⟩ := latchHeader_cases s F <;> simp [h]

@[simp] theorem advanceDecode_sched (s : State) (m : Nat) : (advanceDecode s m).sched = s.sched := by
  obtain ⟨t, rfl, ⟨-, h⟩ | ⟨-, h⟩⟩ := advanceDecode_cases s m <;> simp [h]

/-- R72: no engine step lays down or takes away a turn. -/
theorem exec_engine_sched {s t : State} {c : Instr} (hc : decodeSel s.selector = .ok c) (hx : exec c s = .next t) :
    t.sched = s.sched := by
  obtain ⟨rfl, -, -⟩ | ⟨rfl, -, -⟩ | ⟨rfl, -, -⟩ | ⟨rfl, -, -⟩ | ⟨rfl, -, -⟩ | ⟨rfl, -, -⟩ | ⟨rfl, -, -⟩ :=
    decodeSel_ok hc
  · exact (execEncLoad_keeps hx).sched
  · exact (execEncMeta_keeps hx).1.sched
  · exact (execEncData_keeps hx).1.sched
  · exact (execEncFinish_keeps hx).1.sched
  · obtain ⟨c, -, -, rfl, -⟩ | ⟨F, -, ⟨c, -, -, rfl⟩ | ⟨-, -, rfl⟩⟩ := execDecMeta_next hx <;> simp
  · obtain ⟨c, -, -, rfl, -⟩ | ⟨F, -, ⟨c, -, -, rfl⟩ | ⟨-, -, -, rfl⟩⟩ := execDecData_next hx <;> simp
  · obtain ⟨B, -, ⟨-, rfl⟩ | ⟨-, rfl⟩⟩ := execDecCommit_next hx <;> simp

/-! ### The steps to the end -/

/-- R151, R178: at most this many engine steps, the selected one included, end the operation. -/
def stepsFrom (s : State) : Instr → Nat
  | .encLoad => ceilDiv s.params.pbufSize 32 + 3
  | .encMeta => s.fcount.toNat + 2
  | .encData => s.fcount.toNat + 2 - s.fidx.toNat
  | .encFinish => 1
  | .decMeta => ceilDiv s.params.pbufSize 32 + 2
  | .decData => s.fcount.toNat + 2 - s.fidx.toNat
  | .decCommit => 1
  | _ => 0

/-- The engine steps to the end of the running operation: none while no step is selected. -/
def stepsLeft (s : State) : Nat :=
  match decodeSel s.selector with
  | .ok c => stepsFrom s c
  | .error _ => 0

theorem stepsLeft_eq {s : State} {c : Instr} (hc : decodeSel s.selector = .ok c) : stepsLeft s = stepsFrom s c := by
  rw [stepsLeft, hc]

theorem stepsLeft_ended {s : State} (hm : s.mode = Mode.done ∨ s.mode = Mode.error) (hp : s.phase = 0) :
    stepsLeft s = 0 := by
  obtain hm | hm := hm <;> rw [stepsLeft, State.selector, hm, hp] <;> rfl

/-- R104: a longer payload in smaller frames takes at least as many. -/
theorem ceilDiv_mono {a b a' b' : Nat} (ha : a ≤ a') (hb' : 1 ≤ b') (hb : b' ≤ b) : ceilDiv a b ≤ ceilDiv a' b' := by
  by_contra hmore
  have hoff : ceilDiv a' b' * b < a := off_lt_of_lt_ceilDiv (by omega) (Nat.lt_of_not_le hmore)
  have hall : a' ≤ ceilDiv a' b' * b' := le_ceilDiv_mul hb'
  have hmul : ceilDiv a' b' * b' ≤ ceilDiv a' b' * b := Nat.mul_le_mul_left _ hb
  omega

theorem Inv.fcount_le {s : State} (h : Inv s) (hl : Latched s) (hc : Counted s) :
    s.fcount.toNat ≤ ceilDiv s.params.pbufSize 32 := by
  rw [hc]; exact ceilDiv_mono h.length_le (by decide) (hl.le_bpf h.params_legal)

theorem Inv.stepsLeft_le {s : State} (h : Inv s) : stepsLeft s ≤ ceilDiv s.params.pbufSize 32 + 3 := by
  cases hc : decodeSel s.selector with
  | error r => rw [stepsLeft, hc]; exact Nat.zero_le _
  | ok c =>
    rw [stepsLeft_eq hc]
    obtain ⟨rfl, hm, hp⟩ | ⟨rfl, hm, hp⟩ | ⟨rfl, hm, hp⟩ | ⟨rfl, hm, hp⟩ | ⟨rfl, hm, hp⟩ |
      ⟨rfl, hm, hp⟩ | ⟨rfl, hm, hp⟩ := decodeSel_ok hc <;> dsimp only [stepsFrom]
    · exact Nat.le_refl _
    · obtain ⟨-, hcount, -⟩ := h.enc_meta hm hp
      have := h.fcount_le (h.enc_latched hm) hcount
      omega
    · obtain ⟨hcount, -⟩ := h.enc_data hm hp
      have := h.fcount_le (h.enc_latched hm) hcount
      omega
    · omega
    · omega
    · obtain ⟨hlat, hcount, -⟩ := h.dec_data hm hp
      have := h.fcount_le hlat hcount
      omega
    · omega

/-! ### Where a decode step leads -/

theorem latchHeader_phase (s : State) (F : Frame) :
    (latchHeader s F).phase = if decodeMetadata F = 0 then Phase.decCommit else Phase.decData := by
  obtain ⟨t, rfl, ⟨hz, h⟩ | ⟨hz, h⟩⟩ := latchHeader_cases s F
  · rw [h, if_pos hz]
  · rw [h, if_neg hz]

theorem advanceDecode_phase (s : State) (m : Nat) :
    (advanceDecode s m).phase = if s.cursor.toNat + m = s.length.toNat then Phase.decCommit else s.phase := by
  obtain ⟨t, rfl, ⟨hc, h⟩ | ⟨hc, h⟩⟩ := advanceDecode_cases s m
  · rw [h, if_pos hc]
  · rw [h, if_neg hc]

@[simp] theorem advanceDecode_fcount (s : State) (m : Nat) : (advanceDecode s m).fcount = s.fcount := by
  obtain ⟨t, rfl, ⟨-, h⟩ | ⟨-, h⟩⟩ := advanceDecode_cases s m <;> simp [h]

/-! ### Each step brings the end nearer -/

section
variable {s t : State}

/-- R140, R106: a payload that fits PBUF needs no more frames than the bound counts. -/
theorem Inv.encLoad_nearer (h : Inv s) (hm : s.mode = Mode.enc) (hp : s.phase = Phase.encLoad)
    (hx : exec .encLoad s = .next t) : stepsLeft t < stepsFrom s .encLoad := by
  have ht : Inv t := h.execEncLoad hm hp hx
  have hparams : t.params = s.params := (execEncLoad_keeps hx).params
  dsimp only [stepsFrom]
  obtain ⟨c, -, -, rfl⟩ | ⟨B, -, -, -, hB⟩ := execEncLoad_next hx
  · rw [stepsLeft_ended (.inr rfl) rfl]; omega
  · have hm' : t.mode = Mode.enc := by simpa [hB] using hm
    have hp' : t.phase = Phase.encMeta := by rw [hB]
    obtain ⟨-, hcount, -⟩ := ht.enc_meta hm' hp'
    have hfc := ht.fcount_le (ht.enc_latched hm') hcount
    rw [stepsLeft_eq (State.selects hm' hp' rfl), ← hparams]
    dsimp only [stepsFrom]; omega

/-- R143: FIDX becomes 1. -/
theorem encMeta_nearer (hm : s.mode = Mode.enc) (hx : exec .encMeta s = .next t) :
    stepsLeft t < stepsFrom s .encMeta := by
  dsimp only [stepsFrom]
  obtain ⟨-, rfl⟩ | ⟨-, u, rfl, ⟨-, rfl⟩ | ⟨-, ht⟩⟩ := execEncMeta_next hx
  · rw [stepsLeft_ended (.inr rfl) rfl]; omega
  · rw [stepsLeft_ended (.inr rfl) rfl]; omega
  · have hm' : t.mode = Mode.enc := by simpa [ht] using hm
    have hp' : t.phase = Phase.encData := by rw [ht]
    rw [stepsLeft_eq (State.selects hm' hp' rfl)]
    simp [stepsFrom, ht]

/-- R146: FIDX grows by 1 up to FCOUNT, and FINISH comes after the last data frame. -/
theorem Inv.encData_nearer (h : Inv s) (hm : s.mode = Mode.enc) (hp : s.phase = Phase.encData)
    (hx : exec .encData s = .next t) : stepsLeft t < stepsFrom s .encData := by
  obtain ⟨hcount, hdata, -⟩ := h.enc_data hm hp
  have hfit := (hdata.sums_fit ((h.enc_latched hm).le_bpf h.params_legal) hcount).2
  obtain ⟨-, hle, -⟩ := hdata
  dsimp only [stepsFrom]
  obtain ⟨B, -, ⟨-, rfl⟩ | ⟨-, ht⟩⟩ := execEncData_next hx
  · rw [stepsLeft_ended (.inr rfl) rfl]; omega
  · have hm' : t.mode = Mode.enc := by simpa [ht] using hm
    by_cases hlast : s.fidx.toNat = s.fcount.toNat
    · have hp' : t.phase = Phase.encFinish := by simp [ht, hlast]
      rw [stepsLeft_eq (State.selects hm' hp' rfl)]
      dsimp only [stepsFrom]; omega
    · have hp' : t.phase = Phase.encData := by simp [ht, hlast, hp]
      have hfidx : t.fidx.toNat = s.fidx.toNat + 1 := by rw [ht]; exact hfit
      have hfc : t.fcount = s.fcount := by simp [ht]
      rw [stepsLeft_eq (State.selects hm' hp' rfl)]
      dsimp only [stepsFrom]
      rw [hfidx, hfc]; omega

theorem encFinish_nearer (hx : exec .encFinish s = .next t) : stepsLeft t < stepsFrom s .encFinish := by
  obtain ⟨-, rfl⟩ | ⟨-, rfl⟩ := execEncFinish_next hx
  · rw [stepsLeft_ended (.inr rfl) rfl]; exact Nat.one_pos
  · rw [stepsLeft_ended (.inl rfl) rfl]; exact Nat.one_pos

/-- R170, R106: FIDX is 1, and the announced length fits PBUF. -/
theorem Inv.decMeta_nearer (h : Inv s) (hm : s.mode = Mode.dec) (hp : s.phase = Phase.decMeta)
    (hx : exec .decMeta s = .next t) : stepsLeft t < stepsFrom s .decMeta := by
  have ht : Inv t := h.execDecMeta hm hp hx
  have hparams : t.params = s.params := (exec_oneStore hx).params_eq
  dsimp only [stepsFrom]
  obtain ⟨c, -, -, rfl, -⟩ | ⟨F, -, ⟨c, -, -, rfl⟩ | ⟨-, -, hF⟩⟩ := execDecMeta_next hx
  · rw [stepsLeft_ended (.inr rfl) rfl]; omega
  · rw [stepsLeft_ended (.inr rfl) rfl]; omega
  · have hm' : t.mode = Mode.dec := by rw [← hF]; simpa using hm
    have hfidx : t.fidx = 1 := by rw [← hF]; exact latchHeader_fidx _ F
    have hphase : t.phase = if decodeMetadata F = 0 then Phase.decCommit else Phase.decData := by
      rw [← hF, latchHeader_phase]
    split_ifs at hphase with hzero
    · have hp' : t.phase = Phase.decCommit := hphase
      rw [stepsLeft_eq (State.selects hm' hp' rfl)]
      dsimp only [stepsFrom]; omega
    · have hp' : t.phase = Phase.decData := hphase
      obtain ⟨hlat, hcount, -⟩ := ht.dec_data hm' hp'
      have hfc := ht.fcount_le hlat hcount
      have hone : t.fidx.toNat = 1 := by rw [hfidx]; rfl
      rw [stepsLeft_eq (State.selects hm' hp' rfl), ← hparams]
      dsimp only [stepsFrom]; omega

/-- R173: FIDX grows by 1 up to FCOUNT, and COMMIT comes after the last payload byte. -/
theorem Inv.decData_nearer (h : Inv s) (hm : s.mode = Mode.dec) (hp : s.phase = Phase.decData)
    (hx : exec .decData s = .next t) : stepsLeft t < stepsFrom s .decData := by
  obtain ⟨hlat, hcount, hdata, -⟩ := h.dec_data hm hp
  have hfit := (hdata.sums_fit (hlat.le_bpf h.params_legal) hcount).2
  obtain ⟨-, hle, -⟩ := hdata
  dsimp only [stepsFrom]
  obtain ⟨c, -, -, rfl, -⟩ | ⟨F, -, ⟨c, -, -, rfl⟩ | ⟨-, -, -, ht⟩⟩ := execDecData_next hx
  · rw [stepsLeft_ended (.inr rfl) rfl]; omega
  · rw [stepsLeft_ended (.inr rfl) rfl]; omega
  · have hm' : t.mode = Mode.dec := by simpa [ht] using hm
    by_cases hlast : s.cursor.toNat + s.chunk = s.length.toNat
    · have hp' : t.phase = Phase.decCommit := by simp [ht, advanceDecode_phase, hlast]
      rw [stepsLeft_eq (State.selects hm' hp' rfl)]
      dsimp only [stepsFrom]; omega
    · have hp' : t.phase = Phase.decData := by simp [ht, advanceDecode_phase, hlast, hp]
      have hfidx : t.fidx.toNat = s.fidx.toNat + 1 := by simpa [ht] using hfit
      have hfc : t.fcount = s.fcount := by simp [ht]
      rw [stepsLeft_eq (State.selects hm' hp' rfl)]
      dsimp only [stepsFrom]
      rw [hfidx, hfc]; omega

theorem decCommit_nearer (hx : exec .decCommit s = .next t) : stepsLeft t < stepsFrom s .decCommit := by
  obtain ⟨B, -, ⟨-, rfl⟩ | ⟨-, rfl⟩⟩ := execDecCommit_next hx
  · rw [stepsLeft_ended (.inr rfl) rfl]; exact Nat.one_pos
  · rw [stepsLeft_ended (.inl rfl) rfl]; exact Nat.one_pos

theorem Inv.exec_engine_nearer {c : Instr} (h : Inv s) (hc : decodeSel s.selector = .ok c)
    (hx : exec c s = .next t) : stepsLeft t < stepsLeft s := by
  rw [stepsLeft_eq hc]
  obtain ⟨rfl, hm, hp⟩ | ⟨rfl, hm, hp⟩ | ⟨rfl, hm, hp⟩ | ⟨rfl, hm, hp⟩ | ⟨rfl, hm, hp⟩ |
    ⟨rfl, hm, hp⟩ | ⟨rfl, hm, hp⟩ := decodeSel_ok hc
  · exact h.encLoad_nearer hm hp hx
  · exact encMeta_nearer hm hx
  · exact h.encData_nearer hm hp hx
  · exact encFinish_nearer hx
  · exact h.decMeta_nearer hm hp hx
  · exact h.decData_nearer hm hp hx
  · exact decCommit_nearer hx

end

/-! ### The end -/

/-- R281: the Engine steps on while an operation runs, and `stepsLeft` strictly falls. -/
theorem Inv.run_ends {s : State} (h : Inv s) (hs : s.sched = []) :
    ∃ k t, k ≤ stepsLeft s ∧ core.run k s = .next t ∧ t.idle = true := by
  cases hidle : s.idle with
  | true => exact ⟨0, s, Nat.zero_le _, rfl, hidle⟩
  | false =>
    obtain ⟨c, hc⟩ := h.selects hidle
    obtain ⟨t, hx⟩ := h.exec_engine_answers hc
    have hnear : stepsLeft t < stepsLeft s := h.exec_engine_nearer hc hx
    have hstep : step s = .next t := (step_silent h.held hs hc).trans hx
    obtain ⟨k, u, hk, hrun, hu⟩ :=
      (stepKeepsInvariants s t h hstep).run_ends ((exec_engine_sched hc hx).trans hs)
    exact ⟨k + 1, u, by omega, (run_succ hstep k).trans hrun, hu⟩
termination_by stepsLeft s

/-- Settles O58: `stepsLeft` starts at no more than the bound. -/
theorem everyOperationEnds : Obligations.EveryOperationEnds := by
  intro s h hs
  obtain ⟨k, t, hk, hrun, ht⟩ := h.run_ends hs
  exact ⟨k, t, hk.trans h.stepsLeft_le, hrun, ht⟩

end Sys2Proof.Machine

/-! PROOF. A whole successful encode (R147, R151, R152): the START and ENC_LOAD by their rules, then the requests at the
writer's port one after another. -/

namespace Sys2Proof.Machine

/-! ### Handing over to the writer -/

/-- From s to t the encode made these requests of VW, each of which used up one answer, and only FIDX, CURSOR, MODE and
PHASE may have moved beside. -/
structure HandsOver (s t : State) (es : List Event) : Prop where
  operands : SameOperands s t
  sched : t.sched = s.sched
  srcIn : t.srcIn = s.srcIn
  hist : t.hist = s.hist ++ es
  vwIn : t.vwIn = s.vwIn.drop es.length

theorem SameOperands.trans {s t u : State} (h : SameOperands s t) (k : SameOperands t u) : SameOperands s u where
  params := k.params.trans h.params
  lastcmd := k.lastcmd.trans h.lastcmd
  width := k.width.trans h.width
  height := k.height.trans h.height
  rate := k.rate.trans h.rate
  length := k.length.trans h.length
  bpf := k.bpf.trans h.bpf
  fcount := k.fcount.trans h.fcount
  pbuf := k.pbuf.trans h.pbuf
  fb := k.fb.trans h.fb

theorem HandsOver.trans {s t u : State} {es fs : List Event} (h : HandsOver s t es) (k : HandsOver t u fs) :
    HandsOver s u (es ++ fs) where
  operands := h.operands.trans k.operands
  sched := k.sched.trans h.sched
  srcIn := k.srcIn.trans h.srcIn
  hist := by rw [k.hist, h.hist, List.append_assoc]
  vwIn := by rw [k.vwIn, h.vwIn, List.drop_drop, List.length_append]

/-- Answers laid down as OK are used up one a request. -/
theorem HandsOver.vwIn_left {s t : State} {es : List Event} {n m : Nat} {rest : List Ack} (h : HandsOver s t es)
    (hs : s.vwIn = List.replicate n .ok ++ rest) (hn : n = es.length + m) : t.vwIn = List.replicate m .ok ++ rest := by
  rw [h.vwIn, hs, hn, List.drop_append_of_le_length (by simp), List.drop_replicate, Nat.add_sub_cancel_left]

/-- R143: both requests of ENC_META answered OK. -/
theorem Inv.encMeta_handsOver {s : State} {rest : List Ack} (h : Inv s) (hm : s.mode = Mode.enc)
    (hp : s.phase = Phase.encMeta) (hs : s.sched = []) (hvw : s.vwIn = .ok :: .ok :: rest) :
    ∃ t, step s = .next t ∧
      HandsOver s t [.vwBegin s.width.toNat s.height.toNat s.rate.toNat .ok,
        .vwPut (encodeMetadata s.length s.width.toNat s.height.toNat) .ok] ∧
      t.mode = Mode.enc ∧ t.phase = Phase.encData ∧ t.fidx.toNat = 1 := by
  obtain ⟨hw, hh⟩ := (h.enc_latched hm).header_fits
  obtain ⟨-, hok, -⟩ := encMetaByItsRule s
  have ha : s.vwAnswer = .ok := s.vwAnswer_cons _ _ hvw
  have ha' : s.vwTaken.vwAnswer = .ok := s.vwTaken.vwAnswer_cons _ rest (by rw [s.vwTaken_vwIn, hvw]; rfl)
  obtain ⟨-, hx⟩ := hok ha hw hh
  refine ⟨_, (step_silent h.held hs (State.selects hm hp rfl)).trans (hx ha'), ⟨?_, ?_, ?_, rfl, ?_⟩, ?_, rfl, rfl⟩
  · constructor <;> simp [h.fb_none]
  · simp
  · simp
  · simp [hvw]
  · simpa using hm

/-- R146: the PUT of the data frame of index FIDX answered OK. -/
theorem Inv.encData_handsOver {s : State} {P : List Byte} {rest : List Ack} (h : Inv s) (hm : s.mode = Mode.enc)
    (hp : s.phase = Phase.encData) (hs : s.sched = []) (hP : s.pbuf.readBytes 0 s.length.toNat = some P)
    (hvw : s.vwIn = .ok :: rest) :
    ∃ t, step s = .next t ∧
      HandsOver s t [.vwPut (packFrame s.width.toNat s.height.toNat
        (chunkAt P s.bpf.toNat (s.fidx.toNat - 1))) .ok] ∧
      t.mode = Mode.enc ∧ t.phase = (if s.fidx = s.fcount then Phase.encFinish else Phase.encData) ∧
      t.fidx.toNat = s.fidx.toNat + 1 := by
  obtain ⟨hcount, hdata, -⟩ := h.enc_data hm hp
  have hfidx := (hdata.sums_fit ((h.enc_latched hm).le_bpf h.params_legal) hcount).2
  obtain ⟨hr, hread, hw, hfits⟩ := h.encData_chunk hm hp hP
  have hx := (encDataByItsRule s s.chunk _ rfl hr hread hw hfits).2 (s.vwAnswer_cons _ _ hvw)
  refine ⟨_, (step_silent h.held hs (State.selects hm hp rfl)).trans hx, ⟨?_, ?_, ?_, rfl, ?_⟩, ?_, ?_, hfidx⟩
  · constructor <;> simp [h.fb_none]
  · simp
  · simp
  · simp [hvw]
  · simpa using hm
  · rw [hp]

/-- R149: FINISH answered OK. -/
theorem Inv.encFinish_handsOver {s : State} {rest : List Ack} (h : Inv s) (hm : s.mode = Mode.enc)
    (hp : s.phase = Phase.encFinish) (hs : s.sched = []) (hvw : s.vwIn = .ok :: rest) :
    ∃ t, step s = .next t ∧ HandsOver s t [.vwFinish .ok] ∧ t.mode = Mode.done := by
  have hx := (encFinishByItsRule s).2 (s.vwAnswer_cons _ _ hvw)
  refine ⟨_, (step_silent h.held hs (State.selects hm hp rfl)).trans hx, ⟨?_, ?_, ?_, rfl, ?_⟩, rfl⟩
  · constructor <;> simp [h.fb_none]
  · simp
  · simp
  · simp [hvw]

/-! ### The data frames -/

/-- R147: the PUTs of k data frames from index i on. -/
def dataPuts (w h bpf : Nat) (P : List Byte) (i k : Nat) : List Event :=
  (List.range' i k).map fun j => .vwPut (packFrame w h (chunkAt P bpf j)) .ok

@[simp] theorem length_dataPuts (w h bpf : Nat) (P : List Byte) (i k : Nat) : (dataPuts w h bpf P i k).length = k := by
  simp [dataPuts]

theorem dataPuts_succ (w h bpf : Nat) (P : List Byte) (i k : Nat) :
    dataPuts w h bpf P i (k + 1) = [.vwPut (packFrame w h (chunkAt P bpf i)) .ok] ++ dataPuts w h bpf P (i + 1) k := rfl

/-- R146, R151: with k + 1 data frames to go, k + 1 steps hand them over and reach FINISH. -/
theorem Inv.data_run {s : State} {P : List Byte} {rest : List Ack} {k : Nat} (h : Inv s) (hm : s.mode = Mode.enc)
    (hp : s.phase = Phase.encData) (hs : s.sched = []) (hP : s.pbuf.readBytes 0 s.length.toNat = some P)
    (hk : s.fcount.toNat = s.fidx.toNat + k) (hvw : s.vwIn = List.replicate (k + 1) .ok ++ rest) :
    ∃ t, core.run (k + 1) s = .next t ∧ Inv t ∧
      HandsOver s t (dataPuts s.width.toNat s.height.toNat s.bpf.toNat P (s.fidx.toNat - 1) (k + 1)) ∧
      t.mode = Mode.enc ∧ t.phase = Phase.encFinish := by
  induction k generalizing s with
  | zero =>
    obtain ⟨t, hstep, hover, hm', hp', -⟩ := h.encData_handsOver hm hp hs hP hvw
    have hlast : s.fidx = s.fcount := BitVec.eq_of_toNat_eq hk.symm
    exact ⟨t, run_one hstep, stepKeepsInvariants s t h hstep, hover, hm', by rw [hp', if_pos hlast]⟩
  | succ k ih =>
    obtain ⟨t, hstep, hover, hm', hp', hfidx⟩ := h.encData_handsOver hm hp hs hP hvw
    obtain ⟨-, ⟨hfirst, -⟩, -⟩ := h.enc_data hm hp
    have hmore : s.fidx ≠ s.fcount := fun heq => by rw [heq] at hk; omega
    have hop := hover.operands
    obtain ⟨u, hrun, hu, hover', hmu, hpu⟩ := ih (stepKeepsInvariants s t h hstep) hm' (by rw [hp', if_neg hmore])
      (hover.sched.trans hs) (by rw [hop.pbuf, hop.length, hP]) (by rw [hop.fcount, hfidx]; omega)
      (by rw [hover.vwIn, hvw]; rfl)
    have hnext : t.fidx.toNat - 1 = s.fidx.toNat - 1 + 1 := by omega
    rw [hop.width, hop.height, hop.bpf, hnext] at hover'
    exact ⟨u, (run_succ hstep (k + 1)).trans hrun, hu, dataPuts_succ .. ▸ hover.trans hover', hmu, hpu⟩

/-! ### From ENC_META to DONE -/

/-- R147: the PUTs of the data frames from the first one on are those of the FrameSequence. -/
theorem dataPuts_eq_dataFrames (w h : Nat) (P : List Byte) :
    dataPuts w h (bytesPerFrame w h) P 0 (ceilDiv P.length (bytesPerFrame w h)) =
      (dataFrames w h P).map fun F => .vwPut F .ok := by
  rw [dataPuts, dataFrames, List.map_map, List.range_eq_range']; rfl

/-- R152: the events of a whole encode, step by step. -/
theorem encodeEvents_eq (w h rate : Nat) (P : List Byte) :
    encodeEvents w h rate P = [.srcRead (.bytes P)] ++
      ([.vwBegin w h rate .ok, .vwPut (encodeMetadata (BitVec.ofNat 32 P.length) w h) .ok] ++
        dataPuts w h (bytesPerFrame w h) P 0 (ceilDiv P.length (bytesPerFrame w h)) ++ [.vwFinish .ok]) := by
  rw [dataPuts_eq_dataFrames]; simp [encodeEvents, frameSequence]

/-- R143 to R151: with the payload in PBUF and every answer OK, FCOUNT + 2 steps end the encode. -/
theorem Inv.meta_run {s : State} {P : List Byte} {rest : List Ack} (h : Inv s) (hm : s.mode = Mode.enc)
    (hp : s.phase = Phase.encMeta) (hs : s.sched = []) (hP : s.pbuf.readBytes 0 s.length.toNat = some P)
    (hvw : s.vwIn = List.replicate (s.fcount.toNat + 3) .ok ++ rest) :
    ∃ t, core.run (s.fcount.toNat + 2) s = .next t ∧ Inv t ∧
      HandsOver s t ([.vwBegin s.width.toNat s.height.toNat s.rate.toNat .ok,
          .vwPut (encodeMetadata s.length s.width.toNat s.height.toNat) .ok] ++
        dataPuts s.width.toNat s.height.toNat s.bpf.toNat P 0 s.fcount.toNat ++ [.vwFinish .ok]) ∧
      t.mode = Mode.done := by
  obtain ⟨hpos, hcount, -⟩ := h.enc_meta hm hp
  have hbpf := (h.enc_latched hm).le_bpf h.params_legal
  have hframes : 1 ≤ s.fcount.toNat := hcount ▸ ceilDiv_pos hpos (by omega)
  obtain ⟨k, hk⟩ := Nat.exists_eq_add_of_le' hframes
  rw [hk] at hvw ⊢
  obtain ⟨t, hstep, hover, hmt, hpt, hfidx⟩ := h.encMeta_handsOver hm hp hs hvw
  have hop := hover.operands
  have hvt : t.vwIn = List.replicate (k + 1 + 1) .ok ++ rest := hover.vwIn_left hvw (Nat.add_comm _ 2)
  rw [List.replicate_succ', List.append_assoc] at hvt
  obtain ⟨u, hrun, hu, hover', hmu, hpu⟩ := (stepKeepsInvariants s t h hstep).data_run hmt hpt (hover.sched.trans hs)
    (by rw [hop.pbuf, hop.length, hP]) (by rw [hop.fcount, hfidx, hk, Nat.add_comm]) hvt
  obtain ⟨v, hlast, hover'', hmv⟩ := hu.encFinish_handsOver (rest := rest) hmu hpu
    (hover'.sched.trans (hover.sched.trans hs)) (hover'.vwIn_left (m := 0) hvt (by simp))
  rw [hop.width, hop.height, hop.bpf, hfidx] at hover'
  have hsteps : k + 1 + 2 = (k + 1 + 1) + 1 := rfl
  exact ⟨v, hsteps ▸ (run_succ hstep (k + 1 + 1)).trans (run_add hrun (run_one hlast)),
    stepKeepsInvariants u v hu hlast, (hover.trans hover').trans hover'', hmv⟩

/-! ### From the START to ENC_META -/

/-- R202: the state after an accepted START, with no turn to come. -/
def State.encStarted (s : State) : State :=
  { s.startClear with
    sched := []
    bpf := BitVec.ofNat 32 (bytesPerFrame s.width.toNat s.height.toNat)
    mode := Mode.enc, phase := Phase.encLoad }

/-- R202, R140: the state after a START and an ENC_LOAD that got the payload P; `restSrc` is still to come. -/
def State.loaded (s : State) (P : List Byte) (restSrc : List SrcAnswer) : State :=
  { s with
    mode := Mode.enc, phase := Phase.encMeta, errcode := ErrCode.none, lastcmd := LastCmd.accepted
    length := BitVec.ofNat 32 P.length
    bpf := BitVec.ofNat 32 (bytesPerFrame s.width.toNat s.height.toNat)
    fcount := BitVec.ofNat 32
      (ceilDiv P.length (BitVec.ofNat 32 (bytesPerFrame s.width.toNat s.height.toNat)).toNat)
    fidx := 0, cursor := 0
    pbuf := s.pbuf.writeBytes 0 P
    hist := s.hist ++ [.srcRead (.bytes P)]
    sched := [], srcIn := restSrc }

/-- R202, R205: the CMD write of ENC_START in a legal configuration. -/
theorem Inv.encStart_step {s : State} (h : Inv s) (hidle : s.idle = true) (hs : s.sched = [.write 0 0x00000001])
    (hg : validGeom s.params s.width.toNat s.height.toNat = true) (hr : s.rate ≠ 0) :
    step s = .next s.encStarted := by
  have haccept : acceptEncStart s.mode = some true := if_pos hidle
  have heffect : Machine.encStartEffect { s with sched := [] } = s.encStarted := by
    unfold Machine.encStartEffect
    rw [if_neg (by simp [hg]), if_neg hr]; rfl
  rw [step_command h.held hs (c := .encStart) rfl]
  simp only [exec, execEncStart, haccept, State.issue, heffect]

/-- R202, R140: the CMD write and ENC_LOAD put the payload into PBUF. -/
theorem Inv.start_run {s : State} {P : List Byte} {restSrc : List SrcAnswer} (h : Inv s) (hidle : s.idle = true)
    (hs : s.sched = [.write 0 0x00000001]) (hg : validGeom s.params s.width.toNat s.height.toNat = true)
    (hr : s.rate ≠ 0) (hP : P ≠ []) (hfits : P.length ≤ s.params.pbufSize) (hsrc : s.srcIn = .bytes P :: restSrc) :
    core.run 2 s = .next (s.loaded P restSrc) ∧ Inv (s.loaded P restSrc) := by
  have hstart := h.encStart_step hidle hs hg hr
  have ht := stepKeepsInvariants s _ h hstart
  obtain ⟨-, hbytes⟩ := encLoadByItsRule s.encStarted
  obtain ⟨-, -, hload⟩ := hbytes P (s.encStarted.srcAnswer_cons _ _ hsrc)
  have hstep : step s.encStarted = .next (s.loaded P restSrc) := by
    rw [step_silent ht.held rfl (State.selects (m := Mode.enc) (p := Phase.encLoad) rfl rfl rfl), hload hfits hP,
      s.encStarted.srcTaken_cons _ _ hsrc]
    rfl
  exact ⟨(run_succ hstart 1).trans (run_one hstep), stepKeepsInvariants _ _ ht hstep⟩

/-- Settles O55: two steps load the payload, and n + 2 hand it over; the registers are the invariants' at DONE. -/
theorem wholeEncode : Obligations.WholeEncode := by
  intro s P restSrc restVw n h hidle hs hgeom hr hpos hfits hn hsrc hvw
  have hg := (validGeom_iff _ _ _).2 hgeom
  obtain ⟨hload, hloaded⟩ := h.start_run hidle hs hg hr (List.ne_nil_of_length_pos hpos) hfits hsrc
  obtain ⟨-, -, -, hmax⟩ := Params.legal_bounds h.params_legal
  have hlen : (s.loaded P restSrc).length.toNat = P.length := by
    show (BitVec.ofNat 32 P.length).toNat = _
    rw [BitVec.toNat_ofNat]; omega
  obtain ⟨-, hbpf⟩ := hloaded.enc_latched rfl
  obtain ⟨-, hcount, -⟩ := hloaded.enc_meta rfl rfl
  have hfcount : (s.loaded P restSrc).fcount.toNat = n := by rw [hcount, hlen, hbpf, hn]; rfl
  obtain ⟨t, hrun, ht, hover, hdone⟩ := hloaded.meta_run (P := P) (rest := restVw) rfl rfl rfl
    (by rw [hlen]; exact s.pbuf.readBytes_writeBytes 0 P) (by rw [hfcount]; exact hvw)
  have hop := hover.operands
  obtain ⟨-, hfidx, hcursor⟩ := ht.done hdone
  have htlen : t.length.toNat = P.length := by rw [hop.length, hlen]
  have htfc : t.fcount.toNat = n := by rw [hop.fcount, hfcount]
  refine ⟨t, ?run, ?hist, hdone, ht.errcode_zero (by rw [hdone]; decide), htlen, by rw [hop.bpf, hbpf]; rfl, htfc,
    by rw [hfidx, htfc], by rw [hcursor, htlen], hover.srcIn, ?vwIn⟩
  case run => rw [show n + 4 = 2 + (n + 2) by omega]; exact run_add hload (hfcount ▸ hrun)
  case hist =>
    rw [hover.hist, hfcount, hbpf, encodeEvents_eq, ← hn]
    exact List.append_assoc s.hist [.srcRead (.bytes P)] _
  case vwIn => exact hover.vwIn_left (m := 0) hvw (by simp [hfcount])

end Sys2Proof.Machine

/-! PROOF. The reader's port: every step keeps its order (R32, R66, R177), and the step that gives the reader up emits
the one RELEASE. -/

namespace Sys2Proof.Machine

/-! ### The reader from step to step -/

/-- R32: where the reader stands by STATUS. -/
def State.reader (s : State) : Reader := if s.mode = Mode.dec ∧ s.phase = Phase.decData then .reading else .fresh

/-- R32: VR_HELD is 1 in the META and DATA phases of a decode. -/
theorem State.vrHeld_eq_true {s : State} (hm : s.mode = Mode.dec)
    (hp : s.phase = Phase.decMeta ∨ s.phase = Phase.decData) : s.vrHeld = true := by
  simpa [State.vrHeld, hm] using hp

theorem State.vrHeld_commit {s : State} (hp : s.phase = Phase.decCommit) : s.vrHeld = false := by
  simp [State.vrHeld, hp]

/-- R32: when VR_HELD is 0 nothing of the stream is taken. -/
theorem State.reader_of_not_held {s : State} (h : s.vrHeld = false) : s.reader = .fresh :=
  if_neg fun ⟨hm, hp⟩ => by simp [State.vrHeld_eq_true hm (.inr hp)] at h

theorem State.reader_ne_ended (s : State) : s.reader ≠ .ended := by
  unfold State.reader; split <;> simp

theorem readerAfter_append (r : Reader) (H K : List Event) :
    readerAfter r (H ++ K) = (readerAfter r H).bind fun r' => readerAfter r' K := by
  induction H generalizing r with
  | nil => rfl
  | cons e H ih =>
    simp only [List.cons_append, readerAfter, Option.bind_assoc]
    exact Option.bind_congr fun r' _ => ih r'

/-- R66: the requests of VR. -/
def atReader : Event → Bool
  | .vrNext _ => true
  | .vrRelease => true
  | _ => false

/-- R66: an event of another port leaves the reader where it stands, unless a RELEASE is due. -/
theorem readerNext_elsewhere {r : Reader} {e : Event} (hr : r ≠ .ended) (he : atReader e = false) :
    readerNext r e = some r := by
  cases e
  case vrNext | vrRelease => simp [atReader] at he
  all_goals
    cases r
    case ended => exact absurd rfl hr
    all_goals rfl

theorem readerAfter_elsewhere {r : Reader} {es : List Event} (hr : r ≠ .ended)
    (hes : ∀ e ∈ es, atReader e = false) : readerAfter r es = some r := by
  induction es with
  | nil => rfl
  | cons e es ih =>
    obtain ⟨he, hes⟩ := List.forall_mem_cons.1 hes
    rw [readerAfter, readerNext_elsewhere hr he, Option.bind_some, ih hes]

/-- R66: a RELEASE is allowed at any time. -/
theorem readerAfter_release (r : Reader) : readerAfter r [.vrRelease] = some .fresh := by
  cases r <;> rfl

section
variable {r : Reader} (hr : r ≠ .ended)
include hr

theorem readerAfter_frame (F : Frame) : readerAfter r [.vrNext (.frame F)] = some .reading := by
  cases r
  case ended => exact absurd rfl hr
  all_goals rfl

/-- R66: whatever a NEXT is answered, a RELEASE may follow. -/
theorem readerAfter_next_release (a : VrAnswer) : readerAfter r [.vrNext a, .vrRelease] = some .fresh := by
  cases r
  case ended => exact absurd rfl hr
  all_goals cases a <;> rfl

end

/-- From s to t the history grows by events that take the reader, in R66's order, from where s has it to where t has
it; one of them is a RELEASE exactly when the reader is given up, and a reader that is not held is not asked. -/
structure ReaderMoves (s t : State) (es : List Event) : Prop where
  hist : t.hist = s.hist ++ es
  order : readerAfter s.reader es = some t.reader
  releases : es.count .vrRelease = if s.vrHeld = true ∧ t.vrHeld = false then 1 else 0
  asks : s.vrHeld = false → ∀ r, .vrNext r ∉ es

theorem ReaderMoves.inOrder {s t : State} {es : List Event} (hm : ReaderMoves s t es) (h : ReaderInOrder s) :
    ReaderInOrder t := by
  have hs : readerAfter .fresh s.hist = some s.reader := h
  show readerAfter .fresh t.hist = some t.reader
  rw [hm.hist, readerAfter_append, hs, Option.bind_some, hm.order]

theorem ReaderMoves.of_sched {s t : State} {l : List Turn} {es : List Event}
    (h : ReaderMoves { s with sched := l } t es) : ReaderMoves s t es :=
  ⟨h.hist, h.order, h.releases, h.asks⟩

theorem ReaderMoves.of_unchanged {s t : State} (hm : t.mode = s.mode) (hp : t.phase = s.phase)
    (hh : t.hist = s.hist) : ReaderMoves s t [] where
  hist := by simp [hh]
  order := by simp [readerAfter, State.reader, hm, hp]
  releases := by
    have hheld : t.vrHeld = s.vrHeld := by rw [State.vrHeld, State.vrHeld, hm, hp]
    simp [hheld]
  asks := by simp

/-- A reader that is not held is not asked, and stays fresh where the step does not lead to the DATA phase. -/
theorem ReaderMoves.of_not_held {s t : State} {es : List Event} (hs : s.vrHeld = false) (ht : t.reader = .fresh)
    (hh : t.hist = s.hist ++ es) (hes : ∀ e ∈ es, atReader e = false) : ReaderMoves s t es where
  hist := hh
  order := by rw [State.reader_of_not_held hs, ht, readerAfter_elsewhere (by decide) hes]
  releases := by
    rw [if_neg (by simp [hs])]
    exact List.count_eq_zero.2 fun hmem => absurd (hes _ hmem) (by decide)
  asks _ r hmem := absurd (hes _ hmem) (by simp [atReader])

/-- R170, R173: a frame is taken, and the reader stays held for the next one. -/
theorem ReaderMoves.of_frame {s t : State} {F : Frame} (hs : s.vrHeld = true) (hm : t.mode = Mode.dec)
    (hp : t.phase = Phase.decData) (hh : t.hist = s.hist ++ [.vrNext (.frame F)]) :
    ReaderMoves s t [.vrNext (.frame F)] where
  hist := hh
  order := by
    have ht : t.reader = .reading := if_pos ⟨hm, hp⟩
    rw [ht, readerAfter_frame s.reader_ne_ended]
  releases := by simp [State.vrHeld_eq_true hm (.inr hp)]
  asks h := by simp [hs] at h

/-- R66, R177: the reader is given up, by a RELEASE alone or by one after a NEXT, whatever that was answered. -/
theorem ReaderMoves.of_given_up {s t : State} {es : List Event} (hs : s.vrHeld = true) (ht : t.vrHeld = false)
    (hh : t.hist = s.hist ++ es) (hes : es = [.vrRelease] ∨ ∃ r, es = [.vrNext r, .vrRelease]) :
    ReaderMoves s t es where
  hist := hh
  order := by
    rw [State.reader_of_not_held ht]
    obtain rfl | ⟨r, rfl⟩ := hes
    · exact readerAfter_release s.reader
    · exact readerAfter_next_release s.reader_ne_ended r
  releases := by
    rw [if_pos ⟨hs, ht⟩]
    obtain rfl | ⟨r, rfl⟩ := hes
    · rfl
    · exact List.count_cons_of_ne (by simp)
  asks h := by simp [hs] at h

/-! ### Commands -/

theorem vrHeld_of_modeIdle {s : State} (h : modeIdle s.mode = true) : s.vrHeld = false := by
  refine State.vrHeld_eq_false ?_
  obtain h | h | h := (modeIdle_iff s.mode).1 h <;> rw [h] <;> decide

/-- R202: a START of an encode does not ask for the reader. -/
theorem encStartEffect_vrHeld (s : State) : (encStartEffect s).vrHeld = false := by
  obtain ⟨-, he⟩ | ⟨-, -, he⟩ | ⟨-, -, he⟩ := encStartEffect_cases s <;> rw [he] <;> rfl

theorem clearEffect_vrHeld {s : State} (h : s.vrHeld = false) : (clearEffect s).vrHeld = false := by
  unfold clearEffect
  split
  · rfl
  · exact h

/-- R210: a held reader is released. -/
theorem abortEffect_readerMoves (s : State) : ∃ es, ReaderMoves s (abortEffect s) es := by
  obtain ⟨hm, -, h⟩ | ⟨hm, -, h⟩ | ⟨-, hv, h⟩ | ⟨-, hv, h⟩ | ⟨-, -, h⟩ := abortEffect_cases s <;> rw [h]
  · exact ⟨[.vwDiscard], .of_not_held (State.vrHeld_eq_false (by rw [hm]; decide)) rfl rfl (by decide)⟩
  · exact ⟨[], .of_not_held (State.vrHeld_eq_false (by rw [hm]; decide)) rfl (by simp) (by simp)⟩
  · exact ⟨[.vrRelease], .of_given_up hv rfl rfl (.inl rfl)⟩
  · exact ⟨[], .of_not_held hv rfl (by simp) (by simp)⟩
  · exact ⟨[], .of_unchanged rfl rfl rfl⟩

theorem exec_command_readerMoves {s t : State} {v : Word} {c : Instr} (hc : decodeCmd v = .ok c)
    (hx : exec c s = .next t) : ∃ es, ReaderMoves s t es := by
  obtain rfl | rfl | rfl | rfl := decodeCmd_ok hc
  · obtain ⟨hidle, rfl⟩ | ⟨-, rfl⟩ := execEncStart_next hx
    · exact ⟨[], .of_not_held (vrHeld_of_modeIdle hidle) (State.reader_of_not_held (encStartEffect_vrHeld s))
        (by simp) (by simp)⟩
    · exact ⟨[], .of_unchanged rfl rfl rfl⟩
  · obtain ⟨hidle, rfl⟩ | ⟨-, rfl⟩ := execDecStart_next hx
    · exact ⟨[], .of_not_held (vrHeld_of_modeIdle hidle) rfl (by simp) (by simp)⟩
    · exact ⟨[], .of_unchanged rfl rfl rfl⟩
  · obtain rfl := execAbort_next hx
    exact abortEffect_readerMoves s
  · obtain ⟨hidle, rfl⟩ | ⟨-, rfl⟩ := execClear_next hx
    · have hs := vrHeld_of_modeIdle hidle
      exact ⟨[], .of_not_held hs (State.reader_of_not_held (clearEffect_vrHeld hs)) (by simp) (by simp)⟩
    · exact ⟨[], .of_unchanged rfl rfl rfl⟩

/-! ### Encoder steps -/

/-- R32: an encode does not hold the reader, and none of its steps leads to a decode. -/
theorem ReaderMoves.of_encoder {s t : State} {es : List Event} (hm : s.mode = Mode.enc) (hk : EncoderKeeps s t)
    (hh : t.hist = s.hist ++ es) (hes : ∀ e ∈ es, atReader e = false) : ReaderMoves s t es := by
  refine .of_not_held (State.vrHeld_eq_false (by rw [hm]; decide)) (if_neg fun ⟨hmode, hphase⟩ => ?_) hh hes
  obtain hk | hk := hk.mode
  · rw [hk, hm] at hmode; exact absurd hmode (by decide)
  · rw [hk] at hphase; exact absurd hphase (by decide)

section
variable {s t : State} (hm : s.mode = Mode.enc)
include hm

theorem execEncLoad_readerMoves (hx : execEncLoad s = .next t) : ∃ es, ReaderMoves s t es := by
  have hk := execEncLoad_keeps hx
  obtain ⟨c, -, -, rfl⟩ | ⟨B, -, -, -, rfl⟩ := execEncLoad_next hx <;>
    exact ⟨[.srcRead s.srcAnswer], .of_encoder hm hk (by simp) (by simp [atReader])⟩

theorem execEncMeta_readerMoves (hx : execEncMeta s = .next t) : ∃ es, ReaderMoves s t es := by
  have hk := (execEncMeta_keeps hx).1
  obtain ⟨hb, rfl⟩ | ⟨hb, u, rfl, ⟨hput, rfl⟩ | ⟨hput, rfl⟩⟩ := execEncMeta_next hx
  · exact ⟨[.vwBegin s.width.toNat s.height.toNat s.rate.toNat .err, .vwDiscard],
      .of_encoder hm hk (by simp [hb]) (by simp [atReader])⟩
  · exact ⟨[.vwBegin s.width.toNat s.height.toNat s.rate.toNat .ok,
        .vwPut (encodeMetadata s.length s.width.toNat s.height.toNat) .err, .vwDiscard],
      .of_encoder hm hk (by simp [hb, hput]) (by simp [atReader])⟩
  · exact ⟨[.vwBegin s.width.toNat s.height.toNat s.rate.toNat .ok,
        .vwPut (encodeMetadata s.length s.width.toNat s.height.toNat) .ok],
      .of_encoder hm hk (by simp [hb, hput]) (by simp [atReader])⟩

theorem execEncData_readerMoves (hx : execEncData s = .next t) : ∃ es, ReaderMoves s t es := by
  have hk := (execEncData_keeps hx).1
  obtain ⟨B, -, ⟨-, rfl⟩ | ⟨-, rfl⟩⟩ := execEncData_next hx
  · exact ⟨[.vwPut (packFrame s.width.toNat s.height.toNat B) s.vwAnswer, .vwDiscard],
      .of_encoder hm hk (by simp) (by simp [atReader])⟩
  · exact ⟨[.vwPut (packFrame s.width.toNat s.height.toNat B) s.vwAnswer],
      .of_encoder hm hk (by simp) (by simp [atReader])⟩

theorem execEncFinish_readerMoves (hx : execEncFinish s = .next t) : ∃ es, ReaderMoves s t es := by
  have hk := (execEncFinish_keeps hx).1
  obtain ⟨-, rfl⟩ | ⟨-, rfl⟩ := execEncFinish_next hx
  · exact ⟨[.vwFinish s.vwAnswer, .vwDiscard], .of_encoder hm hk (by simp) (by simp [atReader])⟩
  · exact ⟨[.vwFinish s.vwAnswer], .of_encoder hm hk (by simp) (by simp [atReader])⟩

end

/-! ### Decoder steps -/

section
variable {s t : State} (hm : s.mode = Mode.dec)
include hm

/-- R170: an answer that fails, or a header of 0, gives the reader up. -/
theorem execDecMeta_readerMoves (hp : s.phase = Phase.decMeta) (hx : execDecMeta s = .next t) :
    ∃ es, ReaderMoves s t es := by
  have hs := State.vrHeld_eq_true hm (.inl hp)
  obtain ⟨c, -, -, rfl, -⟩ | ⟨F, hF, ⟨c, -, -, rfl⟩ | ⟨-, -, rfl⟩⟩ := execDecMeta_next hx
  · exact ⟨[.vrNext s.vrAnswer, .vrRelease], .of_given_up hs rfl (by simp) (.inr ⟨_, rfl⟩)⟩
  · exact ⟨[.vrNext s.vrAnswer, .vrRelease], .of_given_up hs rfl (by simp) (.inr ⟨_, rfl⟩)⟩
  · by_cases hz : decodeMetadata F = 0
    · exact ⟨[.vrNext (.frame F), .vrRelease], .of_given_up hs
        (State.vrHeld_commit (by simp [latchHeader_phase, hz])) (by simp [latchHeader_hist, hz, hF]) (.inr ⟨_, rfl⟩)⟩
    · exact ⟨[.vrNext (.frame F)], .of_frame hs (by simp [hm]) (by rw [latchHeader_phase, if_neg hz])
        (by rw [latchHeader_hist, if_neg hz]; simp [hF])⟩

/-- R173: an answer that fails, or the last payload byte, gives the reader up. -/
theorem execDecData_readerMoves (hp : s.phase = Phase.decData) (hx : execDecData s = .next t) :
    ∃ es, ReaderMoves s t es := by
  have hs := State.vrHeld_eq_true hm (.inr hp)
  obtain ⟨c, -, -, rfl, -⟩ | ⟨F, hF, ⟨c, -, -, rfl⟩ | ⟨-, -, -, rfl⟩⟩ := execDecData_next hx
  · exact ⟨[.vrNext s.vrAnswer, .vrRelease], .of_given_up hs rfl (by simp) (.inr ⟨_, rfl⟩)⟩
  · exact ⟨[.vrNext s.vrAnswer, .vrRelease], .of_given_up hs rfl (by simp) (.inr ⟨_, rfl⟩)⟩
  · by_cases hlast : s.cursor.toNat + s.chunk = s.length.toNat
    · exact ⟨[.vrNext (.frame F), .vrRelease], .of_given_up hs
        (State.vrHeld_commit (by simp [advanceDecode_phase, hlast])) (by simp [advanceDecode_hist, hlast, hF])
        (.inr ⟨_, rfl⟩)⟩
    · exact ⟨[.vrNext (.frame F)], .of_frame hs (by simp [hm]) (by simp [advanceDecode_phase, hlast, hp])
        (by simp [advanceDecode_hist, hlast, hF])⟩

end

/-- R176: the reader was released before. -/
theorem execDecCommit_readerMoves {s t : State} (hp : s.phase = Phase.decCommit) (hx : execDecCommit s = .next t) :
    ∃ es, ReaderMoves s t es := by
  have hs := State.vrHeld_commit hp
  obtain ⟨B, -, ⟨-, rfl⟩ | ⟨-, rfl⟩⟩ := execDecCommit_next hx <;>
    exact ⟨[.snkCommit B s.snkAnswer], .of_not_held hs rfl (by simp) (by simp [atReader])⟩

/-! ### Every step -/

theorem exec_engine_readerMoves {s t : State} {c : Instr} (hc : decodeSel s.selector = .ok c)
    (hx : exec c s = .next t) : ∃ es, ReaderMoves s t es := by
  obtain ⟨rfl, hm, -⟩ | ⟨rfl, hm, -⟩ | ⟨rfl, hm, -⟩ | ⟨rfl, hm, -⟩ | ⟨rfl, hm, hp⟩ | ⟨rfl, hm, hp⟩ |
    ⟨rfl, -, hp⟩ := decodeSel_ok hc
  · exact execEncLoad_readerMoves hm hx
  · exact execEncMeta_readerMoves hm hx
  · exact execEncData_readerMoves hm hx
  · exact execEncFinish_readerMoves hm hx
  · exact execDecMeta_readerMoves hm hp hx
  · exact execDecData_readerMoves hm hp hx
  · exact execDecCommit_readerMoves hp hx

/-- A reset empties the history and releases nothing; any other step moves the reader in order. -/
theorem step_reset_or_readerMoves {s t : State} (hstep : step s = .next t) :
    (s.resets = true ∧ ∃ rest, t = State.resetBlock { s with sched := rest }) ∨ ∃ es, ReaderMoves s t es := by
  obtain ⟨rest, hs, rfl⟩ | ⟨-, rest, hturn⟩ := step_next hstep
  · exact .inl ⟨by rw [State.resets, hs], rest, rfl⟩
  · right
    obtain ⟨i, -, rfl⟩ | ⟨v, c, -, hc, hx⟩ | ⟨v, r, -, -, rfl⟩ | ⟨i, v, -, -, rfl⟩ |
      ⟨-, ⟨c, hc, hx⟩ | ⟨-, rfl⟩⟩ := hturn
    · exact ⟨[], .of_unchanged rfl rfl rfl⟩
    · exact (exec_command_readerMoves hc hx).imp fun _ hm => hm.of_sched
    · exact ⟨[], .of_unchanged rfl rfl rfl⟩
    · exact ⟨[], .of_unchanged (by simp) (by simp) (by simp)⟩
    · exact (exec_engine_readerMoves (s := { s with sched := rest }) hc hx).imp fun _ hm => hm.of_sched
    · exact ⟨[], .of_unchanged rfl rfl rfl⟩

/-- Settles O49: a reset leaves an empty history and no decode; any other step moves the reader in order, whether or
not the invariants hold. -/
theorem stepKeepsReaderOrder : Obligations.StepKeepsReaderOrder := by
  intro s t _ horder hstep
  obtain ⟨-, rest, rfl⟩ | ⟨es, hm⟩ := step_reset_or_readerMoves hstep
  · rfl
  · exact hm.inOrder horder

/-- Settles O50: the events of a step that is no reset are those by which the reader moves. -/
theorem readerReleasedExactlyOnce : Obligations.ReaderReleasedExactlyOnce := by
  intro s t hreset hstep
  obtain ⟨hreset', -⟩ | ⟨es, hm⟩ := step_reset_or_readerMoves hstep
  · simp [hreset] at hreset'
  · exact ⟨es, hm.hist, hm.releases, hm.asks⟩

end Sys2Proof.Machine

/-! PROOF. The decoder's three steps by their rules (R170, R173, R176), and what they leave unchanged. -/

namespace Sys2Proof.Machine

/-! ### The steps by their rules -/

/-- R66: NEXT, as one update of what VR's answer leaves. -/
theorem State.askNext_eq (s : State) :
    s.askNext = { s.vrTaken with hist := s.hist ++ [.vrNext s.vrAnswer] } := by
  rw [State.askNext, State.emit, State.vrTaken_hist]

/-- R170, R173: NEXT, RELEASE and the error, as one update; an answer that was no frame has not touched FB. -/
theorem State.askNext_failReader (s : State) (c : BitVec 8) :
    s.askNext.failReader c = { s.vrTaken with
      hist := s.hist ++ [.vrNext s.vrAnswer, .vrRelease], mode := Mode.error, phase := 0, errcode := c } := by
  rw [State.askNext_eq, State.failReader, State.emit, State.raise, List.append_assoc]; rfl

theorem State.askNext_dropFb_failReader (s : State) (c : BitVec 8) :
    s.askNext.dropFb.failReader c = { s.vrTaken with
      fb := none, hist := s.hist ++ [.vrNext s.vrAnswer, .vrRelease]
      mode := Mode.error, phase := 0, errcode := c } :=
  congrArg State.dropFb (s.askNext_failReader c)

/-- R68: COMMIT. -/
theorem State.askCommit_eq (s : State) (B : List Byte) :
    s.askCommit B = { s.snkTaken with hist := s.hist ++ [.snkCommit B s.snkAnswer] } := by
  rw [State.askCommit, State.emit, State.snkTaken_hist]

/-- R170: a header that is not 0 leads to the data frames. -/
theorem latchHeader_data (s : State) {F : Frame} (hz : decodeMetadata F ≠ 0) :
    latchHeader s F = { s with
      width := BitVec.ofNat 16 F.w, height := BitVec.ofNat 16 F.h
      bpf := BitVec.ofNat 32 (bytesPerFrame F.w F.h), length := decodeMetadata F
      fcount := BitVec.ofNat 32 (ceilDiv (decodeMetadata F).toNat (bytesPerFrame F.w F.h))
      fidx := 1, phase := Phase.decData } := by
  obtain ⟨t, rfl, ⟨h0, -⟩ | ⟨-, h⟩⟩ := latchHeader_cases s F
  · exact absurd h0 hz
  · exact h

/-- R104: an empty payload has no data frame. -/
theorem ceilDiv_zero {b : Nat} (hb : 1 ≤ b) : ceilDiv 0 b = 0 := Nat.div_eq_of_lt (by omega)

/-- R170: a header of 0 leads to COMMIT. -/
theorem latchHeader_empty (s : State) {F : Frame} (hz : decodeMetadata F = 0) (hb : 1 ≤ bytesPerFrame F.w F.h) :
    latchHeader s F = { s with
      hist := s.hist ++ [.vrRelease]
      width := BitVec.ofNat 16 F.w, height := BitVec.ofNat 16 F.h
      bpf := BitVec.ofNat 32 (bytesPerFrame F.w F.h), length := 0, fcount := 0
      fidx := 1, phase := Phase.decCommit } := by
  have hfc : BitVec.ofNat 32 (ceilDiv (0 : Word).toNat (bytesPerFrame F.w F.h)) = 0 :=
    congrArg (BitVec.ofNat 32) (ceilDiv_zero hb)
  obtain ⟨t, rfl, ⟨-, h⟩ | ⟨hne, -⟩⟩ := latchHeader_cases s F
  · rw [h, hz, hfc]; rfl
  · exact absurd hz hne

/-- R173: the last payload byte leads to COMMIT, with CURSOR at the end. -/
theorem advanceDecode_last {s : State} {m : Nat} (hend : s.cursor.toNat + m = s.length.toNat) :
    advanceDecode s m = { s with
      hist := s.hist ++ [.vrRelease], cursor := s.length, fidx := BitVec.ofNat 32 (s.fidx.toNat + 1)
      phase := Phase.decCommit } := by
  obtain ⟨t, rfl, ⟨-, h⟩ | ⟨hne, -⟩⟩ := advanceDecode_cases s m
  · rw [h, hend, BitVec.ofNat_toNat, BitVec.setWidth_eq]; rfl
  · exact absurd hend hne

/-- R173: any other step stays in DATA. -/
theorem advanceDecode_more {s : State} {m : Nat} (hmore : s.cursor.toNat + m ≠ s.length.toNat) :
    advanceDecode s m = { s with
      cursor := BitVec.ofNat 32 (s.cursor.toNat + m), fidx := BitVec.ofNat 32 (s.fidx.toNat + 1) } := by
  obtain ⟨t, rfl, ⟨heq, -⟩ | ⟨-, h⟩⟩ := advanceDecode_cases s m
  · exact absurd heq hmore
  · exact h

/-- R100: the bytes of a legal frame. -/
theorem LegalGeometry.bytesPerFrame_pos {p : Params} {w h : Nat} (hg : LegalGeometry p w h) :
    1 ≤ bytesPerFrame w h := by
  obtain ⟨-, -, hw, -, hh, -⟩ := hg
  have hpixels : 32 * 8 ≤ w * h := Nat.mul_le_mul hw hh
  unfold bytesPerFrame; omega

/-- R170: frame 0 of a legal geometry whose header fits PBUF. -/
theorem execDecMeta_frame {s : State} {F : Frame} (ha : s.vrAnswer = .frame F)
    (hg : LegalGeometry s.params F.w F.h) (hfits : (decodeMetadata F).toNat ≤ s.params.pbufSize) :
    exec .decMeta s = .next (latchHeader s.askNext.dropFb F) := by
  have hgeom := (validGeom_iff s.params F.w F.h).2 hg
  simp only [exec, execDecMeta, ha, State.fillFb_dropFb]
  rw [if_neg (by simp [hgeom]), if_neg (by omega)]

/-- Settles O26: the geometry check, then the size check, then what `latchHeader` writes. -/
theorem decMetaByItsRule : Obligations.DecMetaByItsRule := by
  intro s
  refine ⟨fun ha => ?_, fun ha => ?_, fun F ha => ?_⟩
  · simp only [exec, execDecMeta, ha, State.askNext_failReader]
  · simp only [exec, execDecMeta, ha, State.askNext_failReader]
  · have hgeom := validGeom_iff s.params F.w F.h
    refine ⟨fun hg => ?_, fun hg hbig => ?_, fun hg hfits hz => ?_, fun hg hz => ?_⟩
    · simp only [exec, execDecMeta, ha, State.fillFb_dropFb]
      rw [if_pos (Bool.eq_false_iff.2 (mt hgeom.1 hg)), State.askNext_dropFb_failReader, ha]
    · simp only [exec, execDecMeta, ha, State.fillFb_dropFb]
      rw [if_neg (by simp [hgeom.2 hg]), if_pos hbig, State.askNext_dropFb_failReader, ha]
    · rw [execDecMeta_frame ha hg hfits, latchHeader_data _ hz, State.askNext_eq, ha]; rfl
    · rw [execDecMeta_frame ha hg (by simp [hz]), latchHeader_empty _ hz hg.bytesPerFrame_pos, State.askNext_eq, ha]
      simp [State.dropFb, bytesPerFrame]

/-- R173: a frame of frame 0's geometry, which holds the chunk, while PBUF has room for it. -/
theorem execDecData_frame {s : State} {F : Frame} (ha : s.vrAnswer = .frame F) (hFw : F.w = s.width.toNat)
    (hFh : F.h = s.height.toNat) (hw : F.w % 8 = 0) (hfits : s.chunk ≤ bytesPerFrame F.w F.h)
    (hr : s.cursor.toNat + s.chunk ≤ s.params.pbufSize) :
    exec .decData s = .next (advanceDecode { s.askNext.dropFb with
      pbuf := s.pbuf.writeBytes s.cursor.toNat (unpackFrame F s.width.toNat s.chunk) } s.chunk) := by
  have hwrite := (State.memWrite_eq_ok s.askNext.dropFb _ s.cursor.toNat (unpackFrame F s.width.toNat s.chunk)).2
    ⟨by simpa using hr, rfl⟩
  have hin : bytesInFrame F.w F.h s.chunk = true := bytesInFrame_of_le hw hfits
  simp only [exec, execDecData, ha, State.fillFb_dropFb]
  rw [if_neg (by simp [hFw, hFh]), if_pos hin, hwrite]
  simp

/-- Settles O27: the geometry check, then the bytes go to PBUF, and the condition on CURSOR decides. -/
theorem decDataByItsRule : Obligations.DecDataByItsRule := by
  intro s m hm
  obtain rfl : m = s.chunk := hm
  refine ⟨fun ha => ?_, fun ha => ?_, fun F ha => ⟨fun hg => ?_, fun hFw hFh hw hfits hr => ?_⟩⟩
  · simp only [exec, execDecData, ha, State.askNext_failReader]
  · simp only [exec, execDecData, ha, State.askNext_failReader]
  · simp only [exec, execDecData, ha, State.fillFb_dropFb]
    rw [if_pos (by simpa using hg), State.askNext_dropFb_failReader, ha]
  · have hx := execDecData_frame ha hFw hFh hw hfits hr
    refine ⟨fun hend => ?_, fun hmore => ?_⟩
    · rw [hx, advanceDecode_last (by simpa using hend), State.askNext_eq, ha]
      simp [State.dropFb]
    · rw [hx, advanceDecode_more (by simpa using hmore), State.askNext_eq, ha]
      simp [State.dropFb]

/-- Settles O28: the answer of COMMIT decides. -/
theorem decCommitByItsRule : Obligations.DecCommitByItsRule := by
  intro s B hr hB
  have hread := (State.memRead_eq_ok s 0 s.length.toNat B).2 ⟨by simpa using hr, hB⟩
  constructor <;> intro ha <;> simp only [exec, execDecCommit, hread, ha, State.askCommit_eq]
  rfl

/-! ### What the steps leave unchanged -/

/-- From s to t everything stays that no step of a decode writes; ERRCODE changes only on the way to ERROR, and a
change of MODE ends the operation. -/
structure DecoderKeeps (s t : State) : Prop where
  params : t.params = s.params
  lastcmd : t.lastcmd = s.lastcmd
  rate : t.rate = s.rate
  sched : t.sched = s.sched
  reads : t.reads = s.reads
  vwIn : t.vwIn = s.vwIn
  srcIn : t.srcIn = s.srcIn
  fb : s.fb = none → t.fb = none
  errcode : t.errcode = s.errcode ∨ (t.mode = 4 ∧ t.phase = 0)
  mode : t.mode = s.mode ∨ t.phase = 0

/-- The geometry and the length that DEC_META latched. -/
structure HeaderKept (s t : State) : Prop where
  width : t.width = s.width
  height : t.height = s.height
  length : t.length = s.length
  bpf : t.bpf = s.bpf
  fcount : t.fcount = s.fcount

section
variable {s t : State}

theorem execDecMeta_keeps (h : execDecMeta s = .next t) :
    DecoderKeeps s t ∧ t.cursor = s.cursor ∧ t.pbuf = s.pbuf ∧ t.snkIn = s.snkIn := by
  obtain ⟨c, -, -, rfl, -⟩ | ⟨F, -, ⟨c, -, -, rfl⟩ | ⟨-, -, hF⟩⟩ := execDecMeta_next h
  · exact ⟨by constructor <;> simp, by simp⟩
  · exact ⟨by constructor <;> simp, by simp⟩
  · obtain ⟨u, rfl, ⟨-, hu⟩ | ⟨-, hu⟩⟩ := latchHeader_cases s.askNext.dropFb F <;> obtain rfl := hu.symm.trans hF
    · exact ⟨by constructor <;> simp, by simp⟩
    · exact ⟨by constructor <;> simp, by simp⟩

theorem execDecData_keeps (h : execDecData s = .next t) :
    DecoderKeeps s t ∧ HeaderKept s t ∧ t.snkIn = s.snkIn := by
  obtain ⟨c, -, -, rfl, -⟩ | ⟨F, -, ⟨c, -, -, rfl⟩ | ⟨-, -, -, hF⟩⟩ := execDecData_next h
  · exact ⟨by constructor <;> simp, by constructor <;> simp, by simp⟩
  · exact ⟨by constructor <;> simp, by constructor <;> simp, by simp⟩
  · obtain ⟨u, rfl, ⟨-, hu⟩ | ⟨-, hu⟩⟩ := advanceDecode_cases { s.askNext.dropFb with
        pbuf := s.pbuf.writeBytes s.cursor.toNat (unpackFrame F s.width.toNat s.chunk) } s.chunk <;>
      obtain rfl := hF.trans hu
    · exact ⟨by constructor <;> simp, by constructor <;> simp, by simp⟩
    · exact ⟨by constructor <;> simp, by constructor <;> simp, by simp⟩

theorem execDecCommit_keeps (h : execDecCommit s = .next t) :
    DecoderKeeps s t ∧ HeaderKept s t ∧
      t.cursor = s.cursor ∧ t.pbuf = s.pbuf ∧ t.vrIn = s.vrIn ∧ t.fb = s.fb ∧ t.fidx = s.fidx := by
  obtain ⟨B, -, ⟨-, rfl⟩ | ⟨-, rfl⟩⟩ := execDecCommit_next h <;>
    exact ⟨by constructor <;> simp, by constructor <;> simp, by simp⟩

/-- R173, R57: a frame that is refused stores nothing, and one that is taken stores its bytes from CURSOR on. -/
theorem execDecData_read (h : execDecData s = .next t) {a : Nat}
    (ha : a < s.cursor.toNat ∨ s.cursor.toNat + s.chunk ≤ a ∨ (t.mode = 4 ∧ s.mode ≠ 4)) :
    t.pbuf.read a = s.pbuf.read a := by
  obtain ⟨c, -, -, rfl, -⟩ | ⟨F, -, ⟨c, -, -, rfl⟩ | ⟨-, -, -, rfl⟩⟩ := execDecData_next h
  · simp
  · simp
  · rw [advanceDecode_pbuf]
    refine s.pbuf.read_writeBytes_outside _ a _ ?_
    simpa [← or_assoc] using ha

end

/-- Settles O29: what all three keep, and the rest step by step. -/
theorem decoderFrames : Obligations.DecoderFrames := by
  intro i s t hi hx
  have hkeeps : DecoderKeeps s t ∧ (i ≠ .decMeta → HeaderKept s t) ∧
      (i ≠ .decData → t.cursor = s.cursor ∧ t.pbuf = s.pbuf) ∧ (i ≠ .decCommit → t.snkIn = s.snkIn) := by
    obtain rfl | rfl | rfl := hi
    · obtain ⟨hk, hcur, hpbuf, hsnk⟩ := execDecMeta_keeps hx
      exact ⟨hk, fun hne => absurd rfl hne, fun _ => ⟨hcur, hpbuf⟩, fun _ => hsnk⟩
    · obtain ⟨hk, hheader, hsnk⟩ := execDecData_keeps hx
      exact ⟨hk, fun _ => hheader, fun hne => absurd rfl hne, fun _ => hsnk⟩
    · obtain ⟨hk, hheader, hcur, hpbuf, -⟩ := execDecCommit_keeps hx
      exact ⟨hk, fun _ => hheader, fun _ => ⟨hcur, hpbuf⟩, fun hne => absurd rfl hne⟩
  obtain ⟨hk, hheader, hstore, hsnk⟩ := hkeeps
  refine ⟨hk.params, hk.lastcmd, hk.rate, hk.sched, hk.reads, hk.vwIn, hk.srcIn, fun hne => ?header,
    fun hne => ?store, ?data, hsnk, ?commit, hk.fb, hk.errcode, ?mode⟩
  case header =>
    obtain ⟨hw, hh, hlen, hbpf, hfc⟩ := hheader hne
    exact ⟨hw, hh, hlen, hbpf, hfc⟩
  case store =>
    obtain ⟨hcur, hpbuf⟩ := hstore hne
    exact ⟨hcur, fun a => by rw [hpbuf]⟩
  case data =>
    rintro rfl
    exact ⟨fun a ha => execDecData_read hx (ha.imp_right .inl),
      fun ht hs a => execDecData_read hx (.inr (.inr ⟨ht, hs⟩))⟩
  case commit =>
    rintro rfl
    obtain ⟨-, -, -, -, hcommit⟩ := execDecCommit_keeps hx
    exact hcommit
  case mode =>
    by_cases hm : t.mode = s.mode
    · exact .inl hm
    · exact .inr ⟨hm, hk.mode.resolve_left hm⟩

end Sys2Proof.Machine

/-! PROOF. A whole successful decode (R174, R178, R180): the START and DEC_META by their rules, then the frames one
after another, then the COMMIT; and decoding the frames of a payload (R181). -/

namespace Sys2Proof.Machine

/-! ### The payload in PBUF -/

/-- R57, R173: bytes written at the end of what reads back extend it. -/
theorem Memory.readBytes_append {m : Memory} {n : Nat} {B : List Byte} (h : m.readBytes 0 n = some B) (C : List Byte) :
    (m.writeBytes n C).readBytes 0 (n + C.length) = some (B ++ C) := by
  obtain ⟨hlen, hB⟩ := (m.readBytes_eq_some 0 n B).1 h
  refine (Memory.readBytes_eq_some _ _ _ _).2 ⟨by simp [hlen], fun k hk => ?_⟩
  rw [Nat.zero_add]
  obtain hlt | hge := Nat.lt_or_ge k n
  · have hcell := hB k hlt
    rw [Nat.zero_add] at hcell
    rw [m.read_writeBytes_outside n k C (.inl hlt), hcell, List.getElem?_append_left (by omega)]
  · obtain ⟨j, rfl⟩ := Nat.exists_eq_add_of_le hge
    rw [m.read_writeBytes_inside n j C (by omega), List.getElem?_append_right (by omega), hlen,
      Nat.add_sub_cancel_left]

/-- R180: the bytes of the data frames from index i on. -/
def payloadFrom (w bpf len i : Nat) (Fs : List Frame) : List Byte :=
  ((Fs.zipIdx i).map fun c => unpackFrame c.1 w (chunkLength bpf len (c.2 * bpf))).flatten

theorem payloadFrom_nil (w bpf len i : Nat) : payloadFrom w bpf len i [] = [] := rfl

theorem payloadFrom_cons (w bpf len i : Nat) (F : Frame) (Fs : List Frame) :
    payloadFrom w bpf len i (F :: Fs) =
      unpackFrame F w (chunkLength bpf len (i * bpf)) ++ payloadFrom w bpf len (i + 1) Fs := by
  simp [payloadFrom]

/-! ### The frames at the reader -/

/-- R170, R173: the events of taking frame F when the frames Fs are needed after it. -/
def frameEvents (F : Frame) (Fs : List Frame) : List Event :=
  Event.vrNext (.frame F) :: if Fs = [] then [Event.vrRelease] else []

/-- R180: the events of taking the frames that are still needed. -/
def readEvents : List Frame → List Event
  | [] => []
  | F :: Fs => frameEvents F Fs ++ readEvents Fs

/-- R177, R180: a NEXT for each frame, and one RELEASE after the last. -/
theorem readEvents_cons_eq (F : Frame) (Fs : List Frame) :
    readEvents (F :: Fs) = (F :: Fs).map (fun G => Event.vrNext (.frame G)) ++ [Event.vrRelease] := by
  induction Fs generalizing F with
  | nil => rfl
  | cons G Fs ih => rw [readEvents, ih]; rfl

@[simp] theorem latchHeader_vrIn (s : State) (F : Frame) : (latchHeader s F).vrIn = s.vrIn := by
  obtain ⟨t, rfl, ⟨-, h⟩ | ⟨-, h⟩⟩ := latchHeader_cases s F <;> simp [h]

@[simp] theorem advanceDecode_vrIn (s : State) (m : Nat) : (advanceDecode s m).vrIn = s.vrIn := by
  obtain ⟨t, rfl, ⟨-, h⟩ | ⟨-, h⟩⟩ := advanceDecode_cases s m <;> simp [h]

/-- R43.6: a decode between DEC_META and DEC_COMMIT. Of the data frames i are taken, and B is their payload; the frames
Fs are still needed, and VR will yield them and then `rest`. -/
structure Decoding (s : State) (i : Nat) (B : List Byte) (Fs : List Frame) (rest : List VrAnswer) : Prop where
  inv : Inv s
  mode : s.mode = Mode.dec
  phase : s.phase = if Fs = [] then Phase.decCommit else Phase.decData
  sched : s.sched = []
  fidx : s.fidx.toNat = i + 1
  payload : s.pbuf.readBytes 0 s.cursor.toNat = some B
  geometry : ∀ F ∈ Fs, F.w = s.width.toNat ∧ F.h = s.height.toNat
  frames : s.fcount.toNat = i + Fs.length
  vrIn : s.vrIn = Fs.map .frame ++ rest

theorem HeaderKept.refl (s : State) : HeaderKept s s := ⟨rfl, rfl, rfl, rfl, rfl⟩

theorem HeaderKept.trans {s t u : State} (h : HeaderKept s t) (k : HeaderKept t u) : HeaderKept s u where
  width := k.width.trans h.width
  height := k.height.trans h.height
  length := k.length.trans h.length
  bpf := k.bpf.trans h.bpf
  fcount := k.fcount.trans h.fcount

section
variable {s : State} {i : Nat} {B : List Byte} {F : Frame} {Fs : List Frame} {rest : List VrAnswer}
  (h : Decoding s i B (F :: Fs) rest)
include h

theorem Decoding.dec_data : s.phase = Phase.decData ∧ Latched s ∧ Counted s ∧ AtData s := by
  have hp := h.phase
  rw [if_neg (List.cons_ne_nil F Fs)] at hp
  obtain ⟨hlat, hcount, hdata, -⟩ := h.inv.dec_data h.mode hp
  exact ⟨hp, hlat, hcount, hdata⟩

/-- R105: CURSOR is the offset of data frame i + 1. -/
theorem Decoding.chunk_eq : s.chunk = chunkLength s.bpf.toNat s.length.toNat (i * s.bpf.toNat) := by
  obtain ⟨-, -, -, -, -, hcur, -⟩ := h.dec_data
  rw [State.chunk, hcur, h.fidx, Nat.add_sub_cancel]

/-- R173: the chunk ends the payload exactly when no frame is needed after it. -/
theorem Decoding.last_iff : s.cursor.toNat + s.chunk = s.length.toNat ↔ Fs = [] := by
  obtain ⟨-, hlat, hcount, hdata⟩ := h.dec_data
  have hfidx := h.fidx
  have hframes := h.frames
  rw [List.length_cons] at hframes
  rw [← List.length_eq_zero_iff]
  obtain ⟨heq, hall⟩ | ⟨hlt, -, hmore⟩ := hdata.chunk_cases (hlat.le_bpf h.inv.params_legal) hcount <;> omega

/-- R173: the next frame is taken; the last one leads to COMMIT. -/
theorem Decoding.takes :
    ∃ t, step s = .next t ∧ HeaderKept s t ∧ t.snkIn = s.snkIn ∧ t.hist = s.hist ++ frameEvents F Fs ∧
      Decoding t (i + 1) (B ++ unpackFrame F s.width.toNat
        (chunkLength s.bpf.toNat s.length.toNat (i * s.bpf.toNat))) Fs rest := by
  have hend := h.last_iff
  rw [← h.chunk_eq]
  obtain ⟨hp, hlat, hcount, hdata⟩ := h.dec_data
  obtain ⟨hinv, hm, -, hs, hfidx, hB, hgeom, hframes, hvr⟩ := h
  obtain ⟨⟨hFw, hFh⟩, hgeom⟩ := List.forall_mem_cons.1 hgeom
  obtain ⟨hfitc, hfitf⟩ := hdata.sums_fit (hlat.le_bpf hinv.params_legal) hcount
  obtain ⟨hw, hfits⟩ := hlat.chunk_fits
  have ha : s.vrAnswer = .frame F := s.vrAnswer_cons _ _ hvr
  have hx := execDecData_frame ha hFw hFh (hFw ▸ hw) (by rwa [hFw, hFh])
    (hdata.chunk_le_length.trans hinv.length_le)
  have hstep := (step_silent hinv.held hs (State.selects hm hp rfl)).trans hx
  obtain ⟨-, hkept, hsnk⟩ := execDecData_keeps hx
  have hread := Memory.readBytes_append hB (unpackFrame F s.width.toNat s.chunk)
  rw [length_unpackFrame, ← hfitc] at hread
  refine ⟨_, hstep, hkept, hsnk, by simp [frameEvents, advanceDecode_hist, hend, ha], ?_⟩
  exact {
    inv := stepKeepsInvariants s _ hinv hstep
    mode := by simpa using hm
    phase := by simp [advanceDecode_phase, hend, hp]
    sched := by simpa using hs
    fidx := by rw [advanceDecode_fidx]; simpa [hfidx] using hfitf
    payload := by simpa using hread
    geometry := by rwa [hkept.width, hkept.height]
    frames := by rw [hkept.fcount, hframes, List.length_cons]; omega
    vrIn := by simp [hvr] }

end

/-- R174, R180: the frames still needed are taken one a step. -/
theorem Decoding.run {s : State} {i : Nat} {B : List Byte} {Fs : List Frame} {rest : List VrAnswer}
    (h : Decoding s i B Fs rest) :
    ∃ t, core.run Fs.length s = .next t ∧ HeaderKept s t ∧ t.snkIn = s.snkIn ∧ t.hist = s.hist ++ readEvents Fs ∧
      Decoding t (i + Fs.length) (B ++ payloadFrom s.width.toNat s.bpf.toNat s.length.toNat i Fs) [] rest := by
  induction Fs generalizing s i B with
  | nil => exact ⟨s, rfl, .refl s, rfl, by simp [readEvents], by simpa [payloadFrom_nil] using h⟩
  | cons F Fs ih =>
    obtain ⟨t, hstep, hkept, hsnk, hhist, ht⟩ := h.takes
    obtain ⟨u, hrun, hkept', hsnk', hhist', hu⟩ := ih ht
    refine ⟨u, (run_succ hstep Fs.length).trans hrun, hkept.trans hkept', hsnk'.trans hsnk, ?hist, ?decoding⟩
    case hist => rw [hhist', hhist, readEvents, List.append_assoc]
    case decoding =>
      rw [payloadFrom_cons, ← List.append_assoc, List.length_cons, Nat.add_comm Fs.length, ← Nat.add_assoc]
      rwa [hkept.width, hkept.bpf, hkept.length] at hu

/-! ### From the START to the first data frame -/

/-- R205: the state after an accepted START, with no turn to come. -/
def State.decStarted (s : State) : State :=
  { s.startClear with sched := [], mode := Mode.dec, phase := Phase.decMeta }

/-- R205: the CMD write of DEC_START. -/
theorem Inv.decStart_step {s : State} (h : Inv s) (hidle : s.idle = true) (hs : s.sched = [.write 0 0x00000002]) :
    step s = .next s.decStarted := by
  have haccept : acceptDecStart s.mode = some true := if_pos hidle
  rw [step_command h.held hs (c := .decStart) rfl]
  simp only [exec, execDecStart, haccept, State.issue]
  rfl

/-- R170: the registers hold what frame 0 tells of the payload. -/
structure HeaderOf (s : State) (F : Frame) : Prop where
  width : s.width.toNat = F.w
  height : s.height.toNat = F.h
  length : s.length = decodeMetadata F
  bpf : s.bpf.toNat = bytesPerFrame F.w F.h
  fcount : s.fcount.toNat = ceilDiv (decodeMetadata F).toNat (bytesPerFrame F.w F.h)

theorem HeaderKept.headerOf {s t : State} {F : Frame} (k : HeaderKept s t) (h : HeaderOf s F) : HeaderOf t F where
  width := k.width ▸ h.width
  height := k.height ▸ h.height
  length := k.length ▸ h.length
  bpf := k.bpf ▸ h.bpf
  fcount := k.fcount ▸ h.fcount

/-- R106, R170: what DEC_META latches of a legal frame 0 fits its registers. -/
theorem latchHeader_headerOf {s t : State} {F : Frame} (hp : s.params.legal = true)
    (hg : validGeom s.params F.w F.h = true) (ht : latchHeader s F = t) : HeaderOf t F := by
  obtain ⟨hlo, -, hw, hh⟩ := bytesPerFrame_bounds hp hg
  have hbpf := toNat_bytesPerFrame hp hg
  have hfc := toNat_ceilDiv (decodeMetadata F).isLt (show 1 ≤ bytesPerFrame F.w F.h by omega)
  have hW : (BitVec.ofNat 16 F.w).toNat = F.w := by rw [BitVec.toNat_ofNat]; omega
  have hH : (BitVec.ofNat 16 F.h).toNat = F.h := by rw [BitVec.toNat_ofNat]; omega
  obtain ⟨u, rfl, ⟨-, h⟩ | ⟨-, h⟩⟩ := latchHeader_cases s F <;> obtain rfl := h.symm.trans ht <;>
    exact ⟨hW, hH, rfl, hbpf, hfc⟩

/-- R104: no data frame is needed exactly when the payload is empty. -/
theorem ceilDiv_eq_zero_iff {a b : Nat} (hb : 1 ≤ b) : ceilDiv a b = 0 ↔ a = 0 := by
  refine ⟨fun h => ?_, fun h => by rw [h, ceilDiv_zero hb]⟩
  by_contra hpos
  have := ceilDiv_pos (Nat.one_le_iff_ne_zero.2 hpos) hb
  omega

/-- R170: frame 0 is taken, and its header tells how many data frames are needed. -/
theorem Inv.decMeta_takes {s : State} {F : Frame} {Fs : List Frame} {rest : List VrAnswer} (h : Inv s)
    (hm : s.mode = Mode.dec) (hp : s.phase = Phase.decMeta) (hs : s.sched = [])
    (hg : LegalGeometry s.params F.w F.h) (hfits : (decodeMetadata F).toNat ≤ s.params.pbufSize)
    (hgeom : ∀ G ∈ Fs, G.w = F.w ∧ G.h = F.h)
    (hn : Fs.length = ceilDiv (decodeMetadata F).toNat (bytesPerFrame F.w F.h))
    (hvr : s.vrIn = (F :: Fs).map .frame ++ rest) :
    ∃ t, step s = .next t ∧ t.snkIn = s.snkIn ∧ t.hist = s.hist ++ frameEvents F Fs ∧ HeaderOf t F ∧
      Decoding t 0 [] Fs rest := by
  obtain ⟨-, -, -, -, hcur⟩ := h.dec_meta hm hp
  have ha : s.vrAnswer = .frame F := s.vrAnswer_cons _ _ hvr
  obtain ⟨t, ht⟩ : ∃ t, Machine.latchHeader s.askNext.dropFb F = t := ⟨_, rfl⟩
  have hx : exec .decMeta s = .next t := ht ▸ execDecMeta_frame ha hg hfits
  have hstep := (step_silent h.held hs (State.selects hm hp rfl)).trans hx
  obtain ⟨hkeeps, hcur', -, hsnk⟩ := execDecMeta_keeps hx
  have hheader : HeaderOf t F := latchHeader_headerOf (by simpa using h.params_legal)
    (by simpa using (validGeom_iff _ _ _).2 hg) ht
  have hempty : decodeMetadata F = 0 ↔ Fs = [] := by
    rw [← List.length_eq_zero_iff, hn, ceilDiv_eq_zero_iff hg.bytesPerFrame_pos, ← BitVec.toNat_inj]; rfl
  refine ⟨t, hstep, hsnk, ?hist, hheader, ?decoding⟩
  case hist => simp only [← ht, latchHeader_hist, hempty]; simp [frameEvents, ha]
  case decoding => exact {
    inv := stepKeepsInvariants s t h hstep
    mode := by simp [← ht, hm]
    phase := by simp only [← ht, latchHeader_phase, hempty]
    sched := hkeeps.sched.trans hs
    fidx := by simp [← ht]
    payload := by rw [hcur', hcur]; rfl
    geometry := by rwa [hheader.width, hheader.height]
    frames := by rw [hheader.fcount, hn, Nat.zero_add]
    vrIn := by simp [← ht, hvr] }

/-! ### The COMMIT -/

/-- R176: with every byte decoded, the payload goes to the sink. -/
theorem Decoding.commits {s : State} {i : Nat} {B : List Byte} {rest : List VrAnswer} {restSnk : List Ack}
    (h : Decoding s i B [] rest) (hsnk : s.snkIn = .ok :: restSnk) :
    ∃ t, step s = .next t ∧ Inv t ∧ HeaderKept s t ∧ t.hist = s.hist ++ [.snkCommit B .ok] ∧
      t.mode = Mode.done ∧ t.vrIn = rest ∧ B.length = s.length.toNat := by
  have hp : s.phase = Phase.decCommit := h.phase
  obtain ⟨-, -, ⟨-, hcur⟩, -⟩ := h.inv.dec_commit h.mode hp
  have hB := h.payload
  rw [hcur] at hB
  have hx := (decCommitByItsRule s B h.inv.length_le hB).2 (s.snkAnswer_cons _ _ hsnk)
  have hstep := (step_silent h.inv.held h.sched (State.selects h.mode hp rfl)).trans hx
  obtain ⟨-, hkept, -, -, hvr, -⟩ := execDecCommit_keeps hx
  exact ⟨_, hstep, stepKeepsInvariants s _ h.inv hstep, hkept, rfl, rfl, hvr.trans h.vrIn,
    Memory.readBytes_length hB⟩

/-- R180: the events of a whole decode, step by step. -/
theorem decodeEvents_eq (F : Frame) (Fs : List Frame) :
    decodeEvents F Fs = frameEvents F Fs ++ (readEvents Fs ++
      [.snkCommit (decodedPayload F.w (bytesPerFrame F.w F.h) (decodeMetadata F).toNat Fs) .ok]) := by
  have hreads : frameEvents F Fs ++ readEvents Fs = _ := readEvents_cons_eq F Fs
  rw [← List.append_assoc, hreads, List.append_assoc]
  rfl

/-- Settles O56: after the START one step takes each frame, and one commits; the registers are those that
DEC_META latched and the invariants' at DONE. -/
theorem wholeDecode : Obligations.WholeDecode := by
  intro s F Fs restVr restSnk h hidle hs hg hfits hgeom hn hvr hsnk
  have hstart := h.decStart_step hidle hs
  obtain ⟨t, hmeta, htsnk, hthist, hheader, ht⟩ :=
    (stepKeepsInvariants s _ h hstart).decMeta_takes (rest := restVr) rfl rfl rfl hg hfits hgeom hn hvr
  obtain ⟨u, hrun, hkept, husnk, huhist, hu⟩ := ht.run
  obtain ⟨v, hcommit, hv, hkept', hvhist, hdone, hvrIn, hB⟩ := hu.commits (husnk.trans (htsnk.trans hsnk))
  have hpayload : [] ++ payloadFrom t.width.toNat t.bpf.toNat t.length.toNat 0 Fs =
      decodedPayload F.w (bytesPerFrame F.w F.h) (decodeMetadata F).toNat Fs := by
    rw [List.nil_append, hheader.width, hheader.bpf, hheader.length]; rfl
  rw [hpayload] at hB hvhist
  obtain ⟨-, hfidx, hcursor⟩ := hv.done hdone
  obtain ⟨hw, hh, hlen, hbpf, hfc⟩ := (hkept.trans hkept').headerOf hheader
  refine ⟨v, ?run, ?hist, by rw [hB, hkept.length, hheader.length], hdone,
    hv.errcode_zero (by rw [hdone]; decide), hw, hh, hlen, hbpf, by rw [hfc, hn], by rw [hfidx, hfc, hn], hcursor,
    hvrIn⟩
  case run =>
    have hsteps : Fs.length + 3 = (Fs.length + 1) + 1 + 1 := rfl
    rw [hsteps, run_succ hstart, run_succ hmeta]
    exact run_add hrun (run_one hcommit)
  case hist =>
    rw [hvhist, huhist, hthist, decodeEvents_eq, List.append_assoc, List.append_assoc]
    rfl

/-! ### Decoding the frames of a payload -/

/-- R105: a chunk has as many bytes as its frame carries. -/
theorem length_chunkAt (P : List Byte) (bpf j : Nat) :
    (chunkAt P bpf j).length = chunkLength bpf P.length (j * bpf) := by
  simp [chunkAt, chunkLength]

/-- R113, R181: the data frames of a payload carry its chunks. -/
theorem payloadFrom_packFrame {w h : Nat} (hw : w % 8 = 0) (hw8 : 8 ≤ w) (P : List Byte) (i k : Nat) :
    payloadFrom w (bytesPerFrame w h) P.length i
        ((List.range' i k).map fun j => packFrame w h (chunkAt P (bytesPerFrame w h) j)) =
      (P.drop (i * bytesPerFrame w h)).take (k * bytesPerFrame w h) := by
  induction k generalizing i with
  | zero => simp [payloadFrom]
  | succ k ih =>
    have hfits : (chunkAt P (bytesPerFrame w h) i).length ≤ bytesPerFrame w h := by simp [chunkAt]
    rw [List.range'_succ, List.map_cons, payloadFrom_cons, ih, ← length_chunkAt, unpackInvertsPack w h _ hw hw8 hfits,
      chunkAt, Nat.succ_mul k, Nat.add_comm (k * _), List.take_add, List.drop_drop, Nat.succ_mul]

/-- R181: n frames carry the whole payload. -/
theorem decodedPayload_dataFrames {w h : Nat} (hw : w % 8 = 0) (hw8 : 8 ≤ w) (hb : 1 ≤ bytesPerFrame w h)
    (P : List Byte) : decodedPayload w (bytesPerFrame w h) P.length (dataFrames w h P) = P := by
  have hall : P.length ≤ ceilDiv P.length (bytesPerFrame w h) * bytesPerFrame w h := le_ceilDiv_mul hb
  have hframes := payloadFrom_packFrame (h := h) hw hw8 P 0 (ceilDiv P.length (bytesPerFrame w h))
  rw [Nat.zero_mul, List.drop_zero, List.take_of_length_le hall] at hframes
  rw [dataFrames, List.range_eq_range']
  exact hframes

/-- R147: each data frame of a payload has the geometry of the sequence. -/
theorem dataFrames_geometry {w h : Nat} {P : List Byte} {F : Frame} (hF : F ∈ dataFrames w h P) :
    F.w = w ∧ F.h = h := by
  obtain ⟨j, -, rfl⟩ := List.mem_map.1 hF
  exact ⟨packFrame_w w h _, packFrame_h w h _⟩

/-- R180: the COMMIT is the last event of a whole decode. -/
theorem getLast?_decodeEvents (H : List Event) (F : Frame) (Fs : List Frame) :
    (H ++ decodeEvents F Fs).getLast? =
      some (.snkCommit (decodedPayload F.w (bytesPerFrame F.w F.h) (decodeMetadata F).toNat Fs) .ok) := by
  rw [decodeEvents_eq, ← List.append_assoc, ← List.append_assoc, List.getLast?_concat]

/-- Settles O57: the header decodes to the length (R125), and the data frames to the payload. -/
theorem decodeInvertsEncode : Obligations.DecodeInvertsEncode := by
  intro s P w h restVr restSnk hinv hidle hs hg _ hfits hvr hsnk
  have hpos := hg.bytesPerFrame_pos
  have ⟨hw, _, hw32, _, hh8, _⟩ := hg
  obtain ⟨-, -, -, hmax⟩ := Params.legal_bounds hinv.params_legal
  have hlen : (BitVec.ofNat 32 P.length).toNat = P.length := by rw [BitVec.toNat_ofNat]; omega
  have hheader : decodeMetadata (encodeMetadata (BitVec.ofNat 32 P.length) w h) = BitVec.ofNat 32 P.length :=
    decodeMetadata_encodeMetadata _ hw32 (by omega)
  obtain ⟨t, hrun, hhist, -, hdone, -⟩ := wholeDecode s (encodeMetadata (BitVec.ofNat 32 P.length) w h)
    (dataFrames w h P) restVr restSnk hinv hidle hs (by simpa using hg) (by rwa [hheader, hlen])
    (fun F hF => by simpa using dataFrames_geometry hF) (by simp [hheader, hlen, dataFrames]) hvr hsnk
  refine ⟨t, hrun, hdone, ?_⟩
  rw [hhist, getLast?_decodeEvents, hheader, hlen, encodeMetadata_w, encodeMetadata_h,
    decodedPayload_dataFrames hw (by omega) hpos]

end Sys2Proof.Machine

/-! PROOF. The four commands by their rules (R200, R201, R202, R205, R210, R214), and what they leave unchanged. -/

namespace Sys2Proof.Machine

/-! ### Accepted and refused -/

section
variable {s : State} (hm : s.mode = 0 ∨ s.mode = 3 ∨ s.mode = 4)
include hm

theorem encStart_accepted : exec .encStart s = .next (encStartEffect s) := by
  obtain ⟨haccept, -⟩ := accept_iff s.mode
  rw [exec, execEncStart, haccept.2 ((modeIdle_iff s.mode).2 hm), State.issue]

theorem decStart_accepted :
    exec .decStart s = .next { s.startClear with mode := Mode.dec, phase := Phase.decMeta } := by
  obtain ⟨-, -, haccept, -⟩ := accept_iff s.mode
  rw [exec, execDecStart, haccept.2 ((modeIdle_iff s.mode).2 hm), State.issue]

theorem clear_accepted : exec .clear s = .next (clearEffect s) := by
  obtain ⟨-, -, -, -, haccept, -⟩ := accept_iff s.mode
  rw [exec, execClear, haccept.2 ((modeIdle_iff s.mode).2 hm), State.issue]

end

/-- R200: ABORT is accepted with an operation running as well. -/
theorem abort_accepted {s : State} (hm : modeIdle s.mode = true ∨ modeRunning s.mode = true) :
    exec .abort s = .next (abortEffect s) := by
  rw [exec, execAbort, (acceptAbort_iff s.mode).1.2 hm, State.issue]

section
variable {s : State} (hm : s.mode = 1 ∨ s.mode = 2)
include hm

theorem encStart_refused : exec .encStart s = .next { s with lastcmd := LastCmd.wrongState } := by
  obtain ⟨-, hrefuse, -⟩ := accept_iff s.mode
  rw [exec, execEncStart, hrefuse.2 ((modeRunning_iff s.mode).2 hm), State.issue]

theorem decStart_refused : exec .decStart s = .next { s with lastcmd := LastCmd.wrongState } := by
  obtain ⟨-, -, -, hrefuse, -⟩ := accept_iff s.mode
  rw [exec, execDecStart, hrefuse.2 ((modeRunning_iff s.mode).2 hm), State.issue]

theorem clear_refused : exec .clear s = .next { s with lastcmd := LastCmd.wrongState } := by
  obtain ⟨-, -, -, -, -, hrefuse⟩ := accept_iff s.mode
  rw [exec, execClear, hrefuse.2 ((modeRunning_iff s.mode).2 hm), State.issue]

end

/-! ### ABORT with an operation running -/

theorem State.vwOpen_iff (s : State) : s.vwOpen = true ↔ s.mode = 1 ∧ (s.phase = 2 ∨ s.phase = 3) := by
  simp [State.vwOpen]

theorem State.vrHeld_iff (s : State) : s.vrHeld = true ↔ s.mode = 2 ∧ (s.phase = 0 ∨ s.phase = 1) := by
  simp [State.vrHeld]

/-- R210: in an encode. -/
theorem abort_enc {s : State} (hm : s.mode = 1) :
    exec .abort s = .next { s with
      lastcmd := 0, hist := s.hist ++ if s.phase = 2 ∨ s.phase = 3 then [.vwDiscard] else []
      mode := 4, phase := 0, errcode := 0x12 } := by
  have hopen : s.vwOpen = true ↔ s.phase = 2 ∨ s.phase = 3 := by simp [s.vwOpen_iff, hm]
  rw [abort_accepted (.inr ((modeRunning_iff s.mode).2 (.inl hm))), abortEffect, if_pos hm]
  simp only [hopen]
  split_ifs
  · rfl
  · rw [List.append_nil]; rfl

/-- R210: in a decode. -/
theorem abort_dec {s : State} (hm : s.mode = 2) :
    exec .abort s = .next { s with
      lastcmd := 0, hist := s.hist ++ if s.phase = 0 ∨ s.phase = 1 then [.vrRelease] else []
      mode := 4, phase := 0, errcode := 0x12 } := by
  have hheld : s.vrHeld = true ↔ s.phase = 0 ∨ s.phase = 1 := by simp [s.vrHeld_iff, hm]
  rw [abort_accepted (.inr ((modeRunning_iff s.mode).2 (.inr hm))), abortEffect, if_neg (by rw [hm]; decide), if_pos hm]
  simp only [hheld]
  split_ifs
  · rfl
  · rw [List.append_nil]; rfl

/-! ### The commands by their rules -/

/-- Settles O15: the three refusals. -/
theorem commandsRefusedWhileRunning : Obligations.CommandsRefusedWhileRunning :=
  fun _ hm => ⟨encStart_refused hm, decStart_refused hm, clear_refused hm⟩

/-- Settles O16: ENC_START is accepted, and its two checks take their turns. -/
theorem encStartByItsRule : Obligations.EncStartByItsRule := by
  intro s hm
  have hgeom := validGeom_iff s.params s.width.toNat s.height.toNat
  rw [encStart_accepted hm, encStartEffect]
  refine ⟨fun hg => ?_, fun hg hr => ?_, fun hg hr => ?_⟩
  · rw [if_pos (Bool.eq_false_iff.2 (mt hgeom.1 hg))]; rfl
  · rw [if_neg (by simp [hgeom.2 hg]), if_pos hr]; rfl
  · rw [if_neg (by simp [hgeom.2 hg]), if_neg hr]; rfl

/-- Settles O17: DEC_START is accepted and checks nothing. -/
theorem decStartByItsRule : Obligations.DecStartByItsRule :=
  fun _ hm => decStart_accepted hm

/-- Settles O18: ABORT is accepted in each MODE, and the phase decides the one event. -/
theorem abortByItsRule : Obligations.AbortByItsRule := by
  intro s
  refine ⟨fun hm hp => ?_, fun hm hp => ?_, fun hm hp => ?_, fun hm hp => ?_, fun hm => ?idle⟩
  · rw [abort_enc hm, if_pos hp]
  · rw [abort_enc hm, if_neg hp, List.append_nil]
  · rw [abort_dec hm, if_pos hp]
  · rw [abort_dec hm, if_neg hp, List.append_nil]
  case idle =>
    have hne : s.mode ≠ 1 ∧ s.mode ≠ 2 := by obtain hm | hm | hm := hm <;> rw [hm] <;> decide
    rw [abort_accepted (.inl ((modeIdle_iff s.mode).2 hm)), abortEffect, if_neg hne.1, if_neg hne.2]

/-- Settles O19: accepted from DONE and ERROR with its effect, from IDLE without, and refused otherwise. -/
theorem clearByItsRule : Obligations.ClearByItsRule := by
  intro s
  refine ⟨fun hm => ?_, fun hm => ?_, clear_refused⟩
  · rw [clear_accepted (.inr hm), clearEffect, if_pos hm]
  · rw [clear_accepted (.inl hm), clearEffect, if_neg (by rw [hm]; decide)]

/-- Settles O5: the decoder of a CMD write is `decodeCmd`. -/
theorem commandWriteRunsInstruction : Obligations.CommandWriteRunsInstruction :=
  fun _ _ _ _ hf hs hc _ => step_command hf hs hc

/-! ### What the commands leave unchanged -/

/-- From s to t everything stays that no command writes: the configuration, PBUF, FB and the world outside. -/
structure CommandKeeps (s t : State) : Prop where
  params : t.params = s.params
  width : t.width = s.width
  height : t.height = s.height
  rate : t.rate = s.rate
  pbuf : t.pbuf = s.pbuf
  fb : t.fb = s.fb
  sched : t.sched = s.sched
  vwIn : t.vwIn = s.vwIn
  vrIn : t.vrIn = s.vrIn
  srcIn : t.srcIn = s.srcIn
  snkIn : t.snkIn = s.snkIn
  draws : t.draws = s.draws
  reads : t.reads = s.reads

/-- The operation registers of R37 to R41, which only the STARTs clear. -/
structure RegistersKept (s t : State) : Prop where
  length : t.length = s.length
  bpf : t.bpf = s.bpf
  fcount : t.fcount = s.fcount
  fidx : t.fidx = s.fidx
  cursor : t.cursor = s.cursor

section
variable {s t : State}

theorem execEncStart_keeps (h : execEncStart s = .next t) : CommandKeeps s t ∧ t.hist = s.hist := by
  obtain ⟨-, rfl⟩ | ⟨-, rfl⟩ := execEncStart_next h
  · refine ⟨?_, encStartEffect_hist s⟩
    obtain ⟨-, he⟩ | ⟨-, -, he⟩ | ⟨-, -, he⟩ := encStartEffect_cases s <;> rw [he] <;> constructor <;> rfl
  · exact ⟨by constructor <;> rfl, rfl⟩

theorem execDecStart_keeps (h : execDecStart s = .next t) : CommandKeeps s t ∧ t.hist = s.hist := by
  obtain ⟨-, rfl⟩ | ⟨-, rfl⟩ := execDecStart_next h <;> exact ⟨by constructor <;> rfl, rfl⟩

theorem execAbort_keeps (h : execAbort s = .next t) : CommandKeeps s t ∧ RegistersKept s t := by
  obtain rfl := execAbort_next h
  obtain ⟨-, -, he⟩ | ⟨-, -, he⟩ | ⟨-, -, he⟩ | ⟨-, -, he⟩ | ⟨-, -, he⟩ := abortEffect_cases s <;> rw [he] <;>
    constructor <;> constructor <;> rfl

/-- R210: at most one event, at the port the operation holds. -/
theorem execAbort_hist (h : execAbort s = .next t) :
    t.hist = s.hist ∨ t.hist = s.hist ++ [.vwDiscard] ∨ t.hist = s.hist ++ [.vrRelease] := by
  obtain rfl := execAbort_next h
  rw [abortEffect_hist]
  split_ifs <;> simp

theorem execClear_keeps (h : execClear s = .next t) : CommandKeeps s t ∧ RegistersKept s t ∧ t.hist = s.hist := by
  obtain ⟨-, rfl⟩ | ⟨-, rfl⟩ := execClear_next h
  · unfold clearEffect
    split <;> exact ⟨by constructor <;> rfl, by constructor <;> rfl, rfl⟩
  · exact ⟨by constructor <;> rfl, by constructor <;> rfl, rfl⟩

end

/-- Settles O20: what all four keep, what ABORT and CLEAR keep beside it, and the events. -/
theorem commandFrames : Obligations.CommandFrames := by
  intro i s t hi hx
  have hkeeps : CommandKeeps s t ∧ (i = .abort ∨ i = .clear → RegistersKept s t) ∧ (i ≠ .abort → t.hist = s.hist) := by
    obtain rfl | rfl | rfl | rfl := hi
    · obtain ⟨hk, hh⟩ := execEncStart_keeps hx
      exact ⟨hk, by simp, fun _ => hh⟩
    · obtain ⟨hk, hh⟩ := execDecStart_keeps hx
      exact ⟨hk, by simp, fun _ => hh⟩
    · obtain ⟨hk, hregs⟩ := execAbort_keeps hx
      exact ⟨hk, fun _ => hregs, fun hne => absurd rfl hne⟩
    · obtain ⟨hk, hregs, hh⟩ := execClear_keeps hx
      exact ⟨hk, fun _ => hregs, fun _ => hh⟩
  obtain ⟨hk, hregs, hhist⟩ := hkeeps
  refine ⟨hk.params, hk.width, hk.height, hk.rate, fun a => by rw [hk.pbuf], hk.fb, hk.sched, hk.vwIn, hk.vrIn,
    hk.srcIn, hk.snkIn, hk.draws, hk.reads, fun hc => ?registers, hhist, ?events⟩
  case registers =>
    obtain ⟨hlen, hbpf, hfc, hfidx, hcur⟩ := hregs hc
    exact ⟨hlen, hbpf, hfc, hfidx, hcur⟩
  case events =>
    by_cases habort : i = .abort
    · subst habort
      exact execAbort_hist hx
    · exact .inl (hhist habort)

end Sys2Proof.Machine

/-! PROOF. Where the model stops: the values never held (R86, R250), the broken preconditions (R56, R57, R109, R200), and
that the invariants of R43 exclude them all (R58, R281). -/

namespace Sys2Proof.Machine

/-! ### Values never held -/

/-- R28, R86. -/
theorem pairHeld_eq_false {m p : BitVec 3}
    (h : 5 ≤ m.toNat ∨ (m = 1 ∧ 4 ≤ p.toNat) ∨ (m = 2 ∧ 3 ≤ p.toNat) ∨ (m ≠ 1 ∧ m ≠ 2 ∧ p ≠ 0)) :
    pairHeld m p = false := by
  revert m p; decide

/-- R230: the codes of the table. -/
theorem errcodeHeld_iff (c : BitVec 8) :
    errcodeHeld c = true ↔
      c ∈ ([0x00, 0x01, 0x02, 0x03, 0x04, 0x05, 0x06, 0x10, 0x11, 0x12, 0x13] : List (BitVec 8)) := by
  revert c; decide

section
variable {s : State} (hp : pairHeld s.mode s.phase = true)
include hp

theorem State.heldFault_neverHeldErrcode (he : errcodeHeld s.errcode = false) :
    s.heldFault = some .neverHeldErrcode := by
  rw [State.heldFault, if_neg (by simp [hp]), if_pos he]

theorem State.heldFault_neverHeldLastcmd (he : errcodeHeld s.errcode = true) (hl : s.lastcmd = 3) :
    s.heldFault = some .neverHeldLastcmd := by
  rw [State.heldFault, if_neg (by simp [hp]), if_neg (by simp [he]), if_pos hl]

end

/-- R250: every turn but a reset makes the check. -/
theorem step_heldFault {s : State} {f : Fault} (hreset : s.resets = false) (hf : s.heldFault = some f) :
    step s = .fault f := by
  cases hs : s.sched with
  | nil => exact step_engine_heldFault (.inr ⟨hs, rfl⟩) hf
  | cons turn rest =>
    cases turn with
    | reset => simp [State.resets, hs] at hreset
    | read i => simp [step, takeTurn, hs, hostRead, hf]
    | write i v => simp [step, takeTurn, hs, hostWrite, hf]
    | engine => exact step_engine_heldFault (.inl hs) hf

/-- Settles O12: the check names the pair first, then the code, then LASTCMD. -/
theorem neverHeldValuesFault : Obligations.NeverHeldValuesFault := by
  intro s hreset
  refine ⟨fun hpair => ?_, fun hp hcode => ?_, fun hp he hl => ?_⟩
  · exact step_heldFault hreset (State.heldFault_neverHeldPair (pairHeld_eq_false hpair))
  · have he : errcodeHeld s.errcode = false := Bool.eq_false_iff.2 (mt (errcodeHeld_iff s.errcode).1 hcode)
    exact step_heldFault hreset (State.heldFault_neverHeldErrcode hp he)
  · exact step_heldFault hreset (State.heldFault_neverHeldLastcmd hp he hl)

/-! ### Broken preconditions -/

/-- R200: the acceptance table has no column for MODE 5, 6 and 7. -/
theorem accept_eq_none {m : BitVec 3} (hm : 5 ≤ m.toNat) :
    acceptEncStart m = none ∧ acceptDecStart m = none ∧ acceptAbort m = none ∧ acceptClear m = none := by
  revert m; decide

theorem exec_command_neverHeld {i : Instr} {s : State} (hi : i = .encStart ∨ i = .decStart ∨ i = .abort ∨ i = .clear)
    (hm : 5 ≤ s.mode.toNat) : exec i s = .fault .neverHeldPair := by
  obtain ⟨henc, hdec, habort, hclear⟩ := accept_eq_none hm
  obtain rfl | rfl | rfl | rfl := hi
  · rw [exec, execEncStart, henc, State.issue]
  · rw [exec, execDecStart, hdec, State.issue]
  · rw [exec, execAbort, habort, State.issue]
  · rw [exec, execClear, hclear, State.issue]

/-- R57: a range not inside PBUF. -/
theorem State.memWrite_outOfRange {s : State} {a : Nat} {B : List Byte} (h : s.params.pbufSize < a + B.length) :
    s.memWrite a B = .error .pbufOutOfRange := by
  rw [State.memWrite, if_neg (by omega)]

section
variable {s : State}

/-- R56: ENC_DATA and DEC_COMMIT stop where their MemRead does. -/
theorem encData_memRead_fault {f : Fault} (h : s.memRead s.cursor.toNat s.chunk = .error f) :
    exec .encData s = .fault f := by
  rw [exec, execEncData, h]

theorem decCommit_memRead_fault {f : Fault} (h : s.memRead 0 s.length.toNat = .error f) :
    exec .decCommit s = .fault f := by
  rw [exec, execDecCommit, h]

/-- R109: the bytes are there, but not all of their pixels. -/
theorem encData_outsideFrame (hr : s.cursor.toNat + s.chunk ≤ s.params.pbufSize)
    (hcells : ∀ k, k < s.chunk → (s.pbuf.read (s.cursor.toNat + k)).isSome = true)
    (hout : bytesInFrame s.width.toNat s.height.toNat s.chunk = false) :
    exec .encData s = .fault .pixelOutsideFrame := by
  obtain ⟨hread, -, -⟩ := memReadByItsRule s s.cursor.toNat s.chunk
  obtain ⟨B, hB, hlen, -⟩ := hread hr hcells
  simp only [exec, execEncData, hB]
  rw [if_neg (by simp [hlen, hout])]

section
variable {F : Frame} (ha : s.vrAnswer = .frame F) (hFw : F.w = s.width.toNat) (hFh : F.h = s.height.toNat)
include ha hFw hFh

theorem decData_outsideFrame (hout : bytesInFrame F.w F.h s.chunk = false) :
    exec .decData s = .fault .pixelOutsideFrame := by
  simp only [exec, execDecData, ha]
  rw [if_neg (by simp [hFw, hFh]), if_neg (by simp [hout])]

theorem decData_outOfRange (hin : bytesInFrame F.w F.h s.chunk = true)
    (hr : s.params.pbufSize < s.cursor.toNat + s.chunk) : exec .decData s = .fault .pbufOutOfRange := by
  simp only [exec, execDecData, ha]
  rw [if_neg (by simp [hFw, hFh]), if_pos hin, State.memWrite_outOfRange (by simpa using hr)]

end

end

/-- Settles O44: the acceptance table, MemRead, MemWrite and the frame check, each where a meaning uses it. -/
theorem brokenPreconditionsFault : Obligations.BrokenPreconditionsFault := by
  refine ⟨fun i s => exec_command_neverHeld, fun s => ⟨fun hr => ?_, fun hr ⟨k, hk, hnone⟩ => ?_, encData_outsideFrame⟩,
    fun s F ha hFw hFh => ⟨decData_outsideFrame ha hFw hFh, decData_outOfRange ha hFw hFh⟩,
    fun s => ⟨fun hr => ?_, fun hr ⟨k, hk, hnone⟩ => ?_⟩⟩
  · exact encData_memRead_fault (State.memRead_outOfRange hr)
  · exact encData_memRead_fault (State.memRead_noValue hr hk hnone)
  · exact decCommit_memRead_fault (State.memRead_outOfRange (by simpa using hr))
  · exact decCommit_memRead_fault (State.memRead_noValue (by simpa using hr) hk (by simpa using hnone))

/-! ### The invariants exclude every stop -/

/-- R27: a MODE that is held either runs an operation or does not. -/
theorem Inv.mode_cases {s : State} (h : Inv s) : (s.mode = 0 ∨ s.mode = 3 ∨ s.mode = 4) ∨ s.mode = 1 ∨ s.mode = 2 := by
  have key : ∀ m p : BitVec 3, pairHeld m p = true → (m = 0 ∨ m = 3 ∨ m = 4) ∨ m = 1 ∨ m = 2 := by decide
  exact key _ _ h.situation.pairHeld

/-- R200: a command is accepted or refused. -/
theorem Inv.exec_command_answers {s : State} {v : Word} {c : Instr} (h : Inv s) (hc : decodeCmd v = .ok c) :
    ∃ t, exec c s = .next t := by
  obtain rfl | rfl | rfl | rfl := decodeCmd_ok hc <;> obtain hidle | hrun := h.mode_cases
  · exact ⟨_, encStart_accepted hidle⟩
  · exact ⟨_, encStart_refused hrun⟩
  · exact ⟨_, decStart_accepted hidle⟩
  · exact ⟨_, decStart_refused hrun⟩
  · exact ⟨_, abort_accepted (.inl ((modeIdle_iff s.mode).2 hidle))⟩
  · exact ⟨_, abort_accepted (.inr ((modeRunning_iff s.mode).2 hrun))⟩
  · exact ⟨_, clear_accepted hidle⟩
  · exact ⟨_, clear_refused hrun⟩

/-- R86, R249: with no operation running the Engine has no step. -/
theorem Inv.selects_none {s : State} (h : Inv s) (hidle : s.idle = true) :
    decodeSel s.selector = .error .noEngineStep := by
  have key : ∀ m p : BitVec 3, pairHeld m p = true → modeIdle m = true →
      decodeSel (p ++ m) = .error .noEngineStep := by decide
  exact key _ _ h.situation.pairHeld hidle

theorem Inv.engine_answers {s : State} {rest : List Turn} (h : Inv s) (hturn : EngineMoves s rest) :
    ∃ t, step s = .next t := by
  cases hidle : s.idle with
  | true => exact ⟨_, step_engine_passes hturn h.held (h.selects_none hidle)⟩
  | false =>
    obtain ⟨c, hc⟩ := h.selects hidle
    have hrest : Inv { s with sched := rest } := { h with }
    rw [step_engine hturn h.held hc]
    exact hrest.exec_engine_answers hc

theorem Inv.write_answers {s : State} {i : Index} {v : Word} {rest : List Turn} (h : Inv s)
    (hs : s.sched = .write i v :: rest) : ∃ t, step s = .next t := by
  by_cases hi : i = 0
  · subst hi
    cases hc : decodeCmd v with
    | error r => exact ⟨_, step_illegal h.held hs hc⟩
    | ok c =>
      have hrest : Inv { s with sched := rest } := { h with }
      rw [step_command h.held hs hc]
      exact hrest.exec_command_answers hc
  · exact ⟨_, step_writeWord h.held hs hi⟩

/-- R260: a reset may come at any time. -/
theorem step_reset {s : State} {rest : List Turn} (hs : s.sched = .reset :: rest) :
    step s = .next (State.resetBlock { s with sched := rest }) := by
  rw [step, takeTurn, hs]

/-- Settles O47: whose turn it is decides, and each turn answers. -/
theorem invariantsExcludeStops : Obligations.InvariantsExcludeStops := by
  intro s h
  cases hs : s.sched with
  | nil => exact h.engine_answers (.inr ⟨hs, rfl⟩)
  | cons turn rest =>
    cases turn with
    | reset => exact ⟨_, step_reset hs⟩
    | read i => exact ⟨_, step_read h.held hs⟩
    | write i v => exact h.write_answers hs
    | engine => exact h.engine_answers (.inl hs)

end Sys2Proof.Machine

/-! PROOF. Errors are precise (R231, R236): a failing engine step changes MODE, PHASE, ERRCODE and the history alone. -/

namespace Sys2Proof.Machine

/-- R236: from s to t the operation ends in an error, with its requests recorded and every register and PBUF as before. -/
structure FailsPrecisely (s t : State) : Prop where
  operands : SameOperands s t
  fidx : t.fidx = s.fidx
  cursor : t.cursor = s.cursor
  phase : t.phase = 0
  errcode : t.errcode ≠ 0
  emits : ∃ e es, t.hist = s.hist ++ e :: es

/-- R236: u is s after the step's requests, and a code of R230 is raised there. -/
theorem FailsPrecisely.of_raise {s u : State} {c : BitVec 8} (k : SameOperands s u) (hf : u.fidx = s.fidx)
    (hc : u.cursor = s.cursor) (he : ∃ e es, u.hist = s.hist ++ e :: es) (h0 : c ≠ ErrCode.none) :
    FailsPrecisely s (u.raise c) :=
  ⟨k.raise c, hf, hc, rfl, h0, he⟩

section
variable {s t : State} (hfb : s.fb = none)

/-- R140. -/
theorem execEncLoad_fails (hm : s.mode = Mode.enc) (hx : execEncLoad s = .next t) (ht : t.mode = Mode.error) :
    FailsPrecisely s t := by
  obtain ⟨c, -, h0, rfl⟩ | ⟨B, -, -, -, rfl⟩ := execEncLoad_next hx
  · exact .of_raise (by constructor <;> simp) (by simp) (by simp) (by simp) h0
  · simp [hm] at ht

/-- R149. -/
theorem execEncFinish_fails (hx : execEncFinish s = .next t) (ht : t.mode = Mode.error) : FailsPrecisely s t := by
  obtain ⟨-, rfl⟩ | ⟨-, rfl⟩ := execEncFinish_next hx
  · exact .of_raise (by constructor <;> simp) (by simp) (by simp) (by simp) (by decide)
  · simp at ht

/-- R176. -/
theorem execDecCommit_fails (hx : execDecCommit s = .next t) (ht : t.mode = Mode.error) : FailsPrecisely s t := by
  obtain ⟨B, -, ⟨-, rfl⟩ | ⟨-, rfl⟩⟩ := execDecCommit_next hx
  · exact .of_raise (by constructor <;> simp) (by simp) (by simp) (by simp) (by decide)
  · simp at ht

include hfb

/-- R143. -/
theorem execEncMeta_fails (hm : s.mode = Mode.enc) (hx : execEncMeta s = .next t) (ht : t.mode = Mode.error) :
    FailsPrecisely s t := by
  obtain ⟨-, rfl⟩ | ⟨-, u, rfl, ⟨-, rfl⟩ | ⟨-, rfl⟩⟩ := execEncMeta_next hx
  · exact .of_raise (by constructor <;> simp) (by simp) (by simp) (by simp) (by decide)
  · exact .of_raise (by constructor <;> simp [hfb]) (by simp) (by simp) (by simp) (by decide)
  · simp [hm] at ht

/-- R146. -/
theorem execEncData_fails (hm : s.mode = Mode.enc) (hx : execEncData s = .next t) (ht : t.mode = Mode.error) :
    FailsPrecisely s t := by
  obtain ⟨B, -, ⟨-, rfl⟩ | ⟨-, rfl⟩⟩ := execEncData_next hx
  · exact .of_raise (by constructor <;> simp [hfb]) (by simp) (by simp) (by simp) (by decide)
  · simp [hm] at ht

/-- R170: no check fails after the first register is latched. -/
theorem execDecMeta_fails (hm : s.mode = Mode.dec) (hx : execDecMeta s = .next t) (ht : t.mode = Mode.error) :
    FailsPrecisely s t := by
  obtain ⟨c, -, h0, rfl, -⟩ | ⟨F, -, ⟨c, -, h0, rfl⟩ | ⟨-, -, rfl⟩⟩ := execDecMeta_next hx
  · exact .of_raise (by constructor <;> simp) (by simp) (by simp) (by simp) h0
  · exact .of_raise (by constructor <;> simp [hfb]) (by simp) (by simp) (by simp) h0
  · simp [hm] at ht

/-- R173: no check fails after the first byte is stored. -/
theorem execDecData_fails (hm : s.mode = Mode.dec) (hx : execDecData s = .next t) (ht : t.mode = Mode.error) :
    FailsPrecisely s t := by
  obtain ⟨c, -, h0, rfl, -⟩ | ⟨F, -, ⟨c, -, h0, rfl⟩ | ⟨-, -, -, rfl⟩⟩ := execDecData_next hx
  · exact .of_raise (by constructor <;> simp) (by simp) (by simp) (by simp) h0
  · exact .of_raise (by constructor <;> simp [hfb]) (by simp) (by simp) (by simp) h0
  · simp [hm] at ht

theorem exec_engine_fails {c : Instr} (hc : decodeSel s.selector = .ok c) (hx : exec c s = .next t)
    (ht : t.mode = Mode.error) : FailsPrecisely s t := by
  obtain ⟨rfl, hm, -⟩ | ⟨rfl, hm, -⟩ | ⟨rfl, hm, -⟩ | ⟨rfl, -, -⟩ | ⟨rfl, hm, -⟩ | ⟨rfl, hm, -⟩ | ⟨rfl, -, -⟩ :=
    decodeSel_ok hc
  · exact execEncLoad_fails hm hx ht
  · exact execEncMeta_fails hfb hm hx ht
  · exact execEncData_fails hfb hm hx ht
  · exact execEncFinish_fails hx ht
  · exact execDecMeta_fails hfb hm hx ht
  · exact execDecData_fails hfb hm hx ht
  · exact execDecCommit_fails hx ht

end

/-- Settles O30: each step fails by one `raise` after its requests, before it has written anything else. -/
theorem failingStepIsPrecise : Obligations.FailingStepIsPrecise := by
  intro i s t hi hfb hx ht
  obtain ⟨k, hfidx, hcur, hphase, herr, e, es, hhist⟩ := exec_engine_fails hfb hi hx ht
  exact ⟨e :: es, List.cons_ne_nil e es, hhist, hphase, herr, k.params, k.lastcmd, k.width, k.height, k.rate, k.length,
    k.bpf, k.fcount, hfidx, hcur, k.pbuf, k.fb⟩

end Sys2Proof.Machine

/-! PROOF. Success is reported at DONE alone (R68, R237): FINISH answered OK ends an encode, COMMIT answered OK a
decode. -/

namespace Sys2Proof.Machine

/-- R65, R68: the events that `ReportsSuccess` speaks of: FINISH answered OK, and COMMIT whatever its answer. -/
def completes : Event → Bool
  | .vwFinish .ok => true
  | .snkCommit _ _ => true
  | _ => false

/-- From s to t the history grows by events that report success exactly when an operation ends in DONE, and a COMMIT
carries the whole payload (R237). -/
structure ReportsSuccess (s t : State) (es : List Event) : Prop where
  hist : t.hist = s.hist ++ es
  finish : .vwFinish .ok ∈ es ↔ s.mode = Mode.enc ∧ t.mode = Mode.done
  commit : (∃ B, .snkCommit B .ok ∈ es) ↔ s.mode = Mode.dec ∧ t.mode = Mode.done
  carries : ∀ B a, .snkCommit B a ∈ es → B.length = s.length.toNat ∧ s.cursor = s.length

theorem ReportsSuccess.of_sched {s t : State} {l : List Turn} {es : List Event}
    (h : ReportsSuccess { s with sched := l } t es) : ReportsSuccess s t es :=
  ⟨h.hist, h.finish, h.commit, h.carries⟩

/-- Nothing is completed, and no running operation ends in DONE. -/
theorem ReportsSuccess.of_none {s t : State} {es : List Event} (hh : t.hist = s.hist ++ es)
    (hes : ∀ e ∈ es, completes e = false) (hdone : s.mode = Mode.enc ∨ s.mode = Mode.dec → t.mode ≠ Mode.done) :
    ReportsSuccess s t es where
  hist := hh
  finish := ⟨fun hmem => absurd (hes _ hmem) (by simp [completes]), fun ⟨hm, ht⟩ => absurd ht (hdone (.inl hm))⟩
  commit := ⟨fun ⟨B, hmem⟩ => absurd (hes _ hmem) (by simp [completes]), fun ⟨hm, ht⟩ => absurd ht (hdone (.inr hm))⟩
  carries B a hmem := absurd (hes _ hmem) (by simp [completes])

/-- MODE and the history stay. -/
theorem ReportsSuccess.of_unchanged {s t : State} (hm : t.mode = s.mode) (hh : t.hist = s.hist) :
    ReportsSuccess s t [] := by
  refine .of_none (by simp [hh]) (by simp) fun hrun => ?_
  rw [hm]
  obtain hrun | hrun := hrun <;> rw [hrun] <;> decide

/-! ### Commands -/

/-- R210: ABORT ends a running operation in ERROR. -/
theorem abortEffect_mode {s : State} (h : s.mode = Mode.enc ∨ s.mode = Mode.dec) :
    (abortEffect s).mode = Mode.error := by
  obtain ⟨-, -, he⟩ | ⟨-, -, he⟩ | ⟨-, -, he⟩ | ⟨-, -, he⟩ | ⟨hne, hnd, -⟩ := abortEffect_cases s
  · rw [he]; rfl
  · rw [he]; rfl
  · rw [he]; rfl
  · rw [he]; rfl
  · exact absurd h (not_or.2 ⟨hne, hnd⟩)

/-- R201, R210: a command leaves a running operation as it is, or ends it in ERROR. -/
theorem exec_command_mode_ne_done {s t : State} {v : Word} {c : Instr} (hc : decodeCmd v = .ok c)
    (hx : exec c s = .next t) (hrun : s.mode = Mode.enc ∨ s.mode = Mode.dec) : t.mode ≠ Mode.done := by
  have hrefused : ∀ u : State, u = { s with lastcmd := LastCmd.wrongState } → u.mode ≠ Mode.done := by
    rintro u rfl
    obtain hrun | hrun := hrun <;> simp [hrun]
  obtain rfl | rfl | rfl | rfl := decodeCmd_ok hc
  · exact hrefused t (Host.Outcome.next.inj (hx.symm.trans (encStart_refused hrun)))
  · exact hrefused t (Host.Outcome.next.inj (hx.symm.trans (decStart_refused hrun)))
  · rw [execAbort_next hx, abortEffect_mode hrun]; decide
  · exact hrefused t (Host.Outcome.next.inj (hx.symm.trans (clear_refused hrun)))

theorem exec_command_reportsSuccess {s t : State} {v : Word} {c : Instr} (hc : decodeCmd v = .ok c)
    (hx : exec c s = .next t) : ∃ es, ReportsSuccess s t es := by
  have hdone := exec_command_mode_ne_done hc hx
  obtain ⟨-, -, -, -, -, -, -, -, -, -, -, -, -, -, -, hh | hh | hh⟩ := commandFrames c s t (decodeCmd_ok hc) hx
  · exact ⟨[], .of_none (by simp [hh]) (by simp) hdone⟩
  · exact ⟨[.vwDiscard], .of_none hh (by simp [completes]) hdone⟩
  · exact ⟨[.vrRelease], .of_none hh (by simp [completes]) hdone⟩

/-! ### Engine steps that complete nothing -/

section
variable {s t : State}

theorem execEncLoad_reportsSuccess (hm : s.mode = Mode.enc) (hx : execEncLoad s = .next t) :
    ∃ es, ReportsSuccess s t es := by
  obtain ⟨c, -, -, rfl⟩ | ⟨B, -, -, -, rfl⟩ := execEncLoad_next hx <;>
    exact ⟨[.srcRead s.srcAnswer], .of_none (by simp) (by simp [completes]) (by simp [hm])⟩

theorem execEncMeta_reportsSuccess (hm : s.mode = Mode.enc) (hx : execEncMeta s = .next t) :
    ∃ es, ReportsSuccess s t es := by
  obtain ⟨-, rfl⟩ | ⟨-, u, rfl, ⟨-, rfl⟩ | ⟨-, rfl⟩⟩ := execEncMeta_next hx
  · exact ⟨[.vwBegin s.width.toNat s.height.toNat s.rate.toNat s.vwAnswer, .vwDiscard],
      .of_none (by simp) (by simp [completes]) (by simp)⟩
  · exact ⟨[.vwBegin s.width.toNat s.height.toNat s.rate.toNat s.vwAnswer,
        .vwPut (encodeMetadata s.length s.width.toNat s.height.toNat) s.vwTaken.vwAnswer, .vwDiscard],
      .of_none (by simp [State.askBegin_vwAnswer]) (by simp [completes]) (by simp)⟩
  · exact ⟨[.vwBegin s.width.toNat s.height.toNat s.rate.toNat s.vwAnswer,
        .vwPut (encodeMetadata s.length s.width.toNat s.height.toNat) s.vwTaken.vwAnswer],
      .of_none (by simp [State.askBegin_vwAnswer]) (by simp [completes]) (by simp [hm])⟩

theorem execEncData_reportsSuccess (hm : s.mode = Mode.enc) (hx : execEncData s = .next t) :
    ∃ es, ReportsSuccess s t es := by
  obtain ⟨B, -, ⟨-, rfl⟩ | ⟨-, rfl⟩⟩ := execEncData_next hx
  · exact ⟨[.vwPut (packFrame s.width.toNat s.height.toNat B) s.vwAnswer, .vwDiscard],
      .of_none (by simp) (by simp [completes]) (by simp)⟩
  · exact ⟨[.vwPut (packFrame s.width.toNat s.height.toNat B) s.vwAnswer],
      .of_none (by simp) (by simp [completes]) (by simp [hm])⟩

theorem execDecMeta_reportsSuccess (hm : s.mode = Mode.dec) (hx : execDecMeta s = .next t) :
    ∃ es, ReportsSuccess s t es := by
  obtain ⟨c, -, -, rfl, -⟩ | ⟨F, -, ⟨c, -, -, rfl⟩ | ⟨-, -, rfl⟩⟩ := execDecMeta_next hx
  · exact ⟨[.vrNext s.vrAnswer, .vrRelease], .of_none (by simp) (by simp [completes]) (by simp)⟩
  · exact ⟨[.vrNext s.vrAnswer, .vrRelease], .of_none (by simp) (by simp [completes]) (by simp)⟩
  · refine ⟨.vrNext s.vrAnswer :: if decodeMetadata F = 0 then [.vrRelease] else [],
      .of_none (by simp [latchHeader_hist]) ?_ (by simp [hm])⟩
    split <;> simp [completes]

theorem execDecData_reportsSuccess (hm : s.mode = Mode.dec) (hx : execDecData s = .next t) :
    ∃ es, ReportsSuccess s t es := by
  obtain ⟨c, -, -, rfl, -⟩ | ⟨F, -, ⟨c, -, -, rfl⟩ | ⟨-, -, -, rfl⟩⟩ := execDecData_next hx
  · exact ⟨[.vrNext s.vrAnswer, .vrRelease], .of_none (by simp) (by simp [completes]) (by simp)⟩
  · exact ⟨[.vrNext s.vrAnswer, .vrRelease], .of_none (by simp) (by simp [completes]) (by simp)⟩
  · refine ⟨.vrNext s.vrAnswer :: if s.cursor.toNat + s.chunk = s.length.toNat then [.vrRelease] else [],
      .of_none (by simp [advanceDecode_hist]) ?_ (by simp [hm])⟩
    split <;> simp [completes]

/-! ### The two steps that end in DONE -/

/-- R149. -/
theorem execEncFinish_reportsSuccess (hm : s.mode = Mode.enc) (hx : execEncFinish s = .next t) :
    ∃ es, ReportsSuccess s t es := by
  obtain ⟨ha, rfl⟩ | ⟨ha, rfl⟩ := execEncFinish_next hx
  · exact ⟨[.vwFinish .err, .vwDiscard], .of_none (by simp [ha]) (by simp [completes]) (by simp)⟩
  · exact ⟨[.vwFinish .ok], by simp [ha], by simp [hm], by simp [hm], by simp⟩

/-- R176, R43.7: COMMIT is asked for with the LENGTH bytes of PBUF, after CURSOR has reached LENGTH. -/
theorem Inv.execDecCommit_reportsSuccess (h : Inv s) (hm : s.mode = Mode.dec) (hp : s.phase = Phase.decCommit)
    (hx : Machine.execDecCommit s = .next t) : ∃ es, ReportsSuccess s t es := by
  obtain ⟨-, -, ⟨-, hcur⟩, -⟩ := h.dec_commit hm hp
  obtain ⟨B, hB, ⟨ha, rfl⟩ | ⟨ha, rfl⟩⟩ := execDecCommit_next hx
  · exact ⟨[.snkCommit B .err], by simp [ha], by simp, by simp, by simp [Memory.readBytes_length hB, hcur]⟩
  · exact ⟨[.snkCommit B .ok], by simp [ha], by simp [hm], by simp [hm], by simp [Memory.readBytes_length hB, hcur]⟩

end

/-! ### Every step -/

theorem Inv.exec_engine_reportsSuccess {s t : State} {c : Instr} (h : Inv s) (hc : decodeSel s.selector = .ok c)
    (hx : exec c s = .next t) : ∃ es, ReportsSuccess s t es := by
  obtain ⟨rfl, hm, -⟩ | ⟨rfl, hm, -⟩ | ⟨rfl, hm, -⟩ | ⟨rfl, hm, -⟩ | ⟨rfl, hm, -⟩ | ⟨rfl, hm, -⟩ |
    ⟨rfl, hm, hp⟩ := decodeSel_ok hc
  · exact execEncLoad_reportsSuccess hm hx
  · exact execEncMeta_reportsSuccess hm hx
  · exact execEncData_reportsSuccess hm hx
  · exact execEncFinish_reportsSuccess hm hx
  · exact execDecMeta_reportsSuccess hm hx
  · exact execDecData_reportsSuccess hm hx
  · exact h.execDecCommit_reportsSuccess hm hp hx

/-- Settles O51: of all turns but a reset only ENC_FINISH and DEC_COMMIT complete an operation. -/
theorem successOnlyAtDone : Obligations.SuccessOnlyAtDone := by
  intro s t h hreset hstep
  suffices hreports : ∃ es, ReportsSuccess s t es from
    hreports.imp fun _ hr => ⟨hr.hist, hr.finish, hr.commit, hr.carries⟩
  obtain ⟨rest, hs, -⟩ | ⟨-, rest, hturn⟩ := step_next hstep
  · simp [State.resets, hs] at hreset
  · have hrest : Inv { s with sched := rest } := { h with }
    obtain ⟨i, -, rfl⟩ | ⟨v, c, -, hc, hx⟩ | ⟨v, r, -, -, rfl⟩ | ⟨i, v, -, -, rfl⟩ |
      ⟨-, ⟨c, hc, hx⟩ | ⟨-, rfl⟩⟩ := hturn
    · exact ⟨[], .of_unchanged rfl rfl⟩
    · exact (exec_command_reportsSuccess hc hx).imp fun _ hr => hr.of_sched
    · exact ⟨[], .of_unchanged rfl rfl⟩
    · exact ⟨[], .of_unchanged (by simp) (by simp)⟩
    · exact (hrest.exec_engine_reportsSuccess hc hx).imp fun _ hr => hr.of_sched
    · exact ⟨[], .of_unchanged rfl rfl⟩

end Sys2Proof.Machine

/-! PROOF. Reset at any time, in any state (R260, R261). -/

namespace Sys2Proof.Machine

/-- Settles O14: a reset turn resets the block once the turn is used up, whatever the state holds (a value never held
included), and `State.resetBlock` keeps the parameters and the world outside the block alone (log 9). -/
theorem resetFromAnyState : Obligations.ResetFromAnyState := by
  intro s rest hs
  rw [step_reset hs, State.resetBlock]

end Sys2Proof.Machine
